-- ==== Sys2Proof/Word.lean ====
section
/-! DEFINITION. The words of P1CORE: bytes, the 32-bit numbers of the record, and the checksum word. -/

namespace Sys2Proof

/-- One byte of the wire, of the frame buffer or of a string register (00_scope.md R9). -/
abbrev Byte := BitVec 8

/-- A numeric field of the record (10_state.md R32 to R49, 92_eei_decisions.md D14). -/
abbrev Word32 := BitVec 32

/-- The running value of the Checksum Engine, `CRC_TX` and `CRC_CALC` (40_crc.md R141, 10_state.md R44). -/
abbrev Word16 := BitVec 16

end Sys2Proof
end

