-- ==== Sys2Proof/Config.lean ====
section
/-! DEFINITION. The configuration `CFG` of P1CORE (00_scope.md R7) as plain data, and the constants the source
fixes (R8). The values of a configuration are OPEN in the spec: every definition of the machine takes them from
the state's `cfg` field, and no operation writes that field (10_state.md R28; notes/assumptions/1.md). -/

namespace Sys2Proof

/-- One byte of a tag pattern: a literal, or the wildcard `N`, any digit (30_encoding.md R105). -/
inductive PatByte where
  | lit (b : Byte)
  | digit
deriving DecidableEq, Repr

/-- The main-meter fields of the record that hold one 32-bit number (10_state.md R32, R35 to R39, R41, R42). -/
inductive NumDest where
  | version
  | eDelT1 | eDelT2 | eProdT1 | eProdT2
  | tariff
  | pDel | pProd
  | pfShort | pfLong
  | sagL1 | sagL2 | sagL3 | swellL1 | swellL2 | swellL3
  | vL1 | vL2 | vL3
  | iL1 | iL2 | iL3
  | pDelL1 | pDelL2 | pDelL3
  | pProdL1 | pProdL2 | pProdL3
deriving DecidableEq, Repr

/-- The extraction rules that yield one number: `INT` (30_encoding.md R106) and `FIX(W,F)` (R107). -/
inductive NumRule where
  | int
  | fix (w f : Nat)
deriving DecidableEq, Repr

/-- Extraction rule and destination of a row of `TAGTAB` together, so that a rule always fits its destination
(00_scope.md R7, 30_encoding.md R110; notes/assumptions/3.md). -/
inductive RowAction where
  /-- a number into a main-meter field -/
  | num (d : NumDest) (r : NumRule)
  /-- `TS` into `REC.TS` -/
  | ts
  /-- `STR` into `REC.EQUIP_ID` -/
  | equipId
  /-- `STR` into `REC.MSG` -/
  | msg
  /-- `PFLOG` into `REC.PFLOG`, `REC.PFLOG_N` -/
  | pflog
  /-- a number into `REC.DEV[N-1].TYPE_CODE` -/
  | devTypeCode (r : NumRule)
  /-- `STR` into `REC.DEV[N-1].EQUIP_ID` -/
  | devEquipId
  /-- `RDG(W,F)` into `REC.DEV[N-1].RD_TS`, `.RD_VAL`, `.RD_UNIT` -/
  | devReading (w f : Nat)
deriving DecidableEq, Repr

/-- A row of the tag table (30_encoding.md R105, R110). -/
structure TagRow where
  pattern : List PatByte
  action : RowAction
deriving DecidableEq, Repr

/-- `CFG`, the implementation parameters of 00_scope.md R7. The model's choice (DESIGN CHOICE,
notes/assumptions/27.md): the three `DEVCODE_*`, of which R7 says only "integer codes", have 32 bits. -/
structure Config where
  /-- `CAP`, capacity of the frame buffer in bytes -/
  cap : Nat
  /-- `FC_EN`, a flow-control pin is configured -/
  fcEn : Bool
  /-- `NSUB`, sub-device slots -/
  nsub : Nat
  /-- `NPF`, power-failure log slots -/
  npf : Nat
  /-- `PFLOG_SKIP`, groups skipped after the count group of the log -/
  pflogSkip : Nat
  /-- `HDR_MAX` -/
  hdrMax : Nat
  /-- `ID_MAX` -/
  idMax : Nat
  /-- `MSG_MAX` -/
  msgMax : Nat
  /-- `UNIT_MAX` -/
  unitMax : Nat
  /-- `TAGTAB` -/
  tagtab : List TagRow
  /-- `DEVCODE_GAS`; its width is the model's (notes/assumptions/27.md) -/
  devGas : Word32
  /-- `DEVCODE_THERMAL`; its width is the model's (notes/assumptions/27.md) -/
  devThermal : Word32
  /-- `DEVCODE_WATER`; its width is the model's (notes/assumptions/27.md) -/
  devWater : Word32
deriving DecidableEq, Repr

/-- Some byte is accepted by both pattern bytes. -/
def PatByte.compatible : PatByte → PatByte → Bool
  | .lit a, .lit b => a == b
  | .lit a, .digit => decide (0x30 ≤ a.toNat ∧ a.toNat ≤ 0x39)
  | .digit, .lit b => decide (0x30 ≤ b.toNat ∧ b.toNat ≤ 0x39)
  | .digit, .digit => true

/-- Some byte string begins with both patterns: the longer one agrees with the shorter one as far as it goes
(30_encoding.md R115). -/
def patternsOverlap : List PatByte → List PatByte → Bool
  | p :: ps, q :: qs => p.compatible q && patternsOverlap ps qs
  | _, _ => true

/-- "No byte string matches two rows" (30_encoding.md R115). -/
def rowsDisjoint : List TagRow → Bool
  | [] => true
  | r :: rs => rs.all (fun r' => !patternsOverlap r.pattern r'.pattern) && rowsDisjoint rs

/-- The row writes a sub-device slot, so its line carries a device ordinal (44_fields_log_subdev.md R241). -/
def RowAction.isSubDevice : RowAction → Bool
  | .num _ _ | .ts | .equipId | .msg | .pflog => false
  | .devTypeCode _ | .devEquipId | .devReading _ _ => true

/-- A sub-device row has its wildcard at offset 2, where R241 reads the ordinal; no pattern holds the line
separator, which no line contains. -/
def TagRow.shapely (r : TagRow) : Bool :=
  (!r.action.isSubDevice || r.pattern[2]? == some .digit) && r.pattern.all (· != .lit 0x0A#8)

/-- The constraints of 00_scope.md R7 on a configuration. Behaviour outside them is not defined by the spec
(93_implementation_defined.md U18; notes/assumptions/25.md). -/
def Config.wf (c : Config) : Bool :=
  decide (8 ≤ c.cap) && decide (1 ≤ c.nsub ∧ c.nsub ≤ 9) && decide (1 ≤ c.npf)
    && decide (1 ≤ c.hdrMax) && decide (1 ≤ c.idMax) && decide (1 ≤ c.msgMax) && decide (1 ≤ c.unitMax)
    && (c.devGas != c.devThermal && c.devGas != c.devWater && c.devThermal != c.devWater)
    && rowsDisjoint c.tagtab && c.tagtab.all TagRow.shapely

/-- Start marker `'/'` (R8). -/
abbrev startMarker : Byte := 0x2F#8
/-- End marker `'!'` (R8). -/
abbrev endMarker : Byte := 0x21#8
/-- Line separator (R8). -/
abbrev lineFeed : Byte := 0x0A#8
/-- `0x0D`, content of a line; only the header rule strips one (20_memory.md R72). -/
abbrev carriageReturn : Byte := 0x0D#8
/-- `'('` (20_memory.md R72). -/
abbrev openParen : Byte := 0x28#8
/-- `')'` (20_memory.md R72). -/
abbrev closeParen : Byte := 0x29#8
/-- `'.'` (20_memory.md R72). -/
abbrev fullStop : Byte := 0x2E#8
/-- `'*'` (20_memory.md R72). -/
abbrev asterisk : Byte := 0x2A#8
/-- `'-'` (20_memory.md R72). -/
abbrev hyphen : Byte := 0x2D#8
/-- Length of a timestamp (R8). -/
abbrev stampLength : Nat := 13

end Sys2Proof
end

