-- ==== Sys2Proof/Syntax.lean ====
section
/-! DEFINITION. The instructions of P1CORE: one constructor for each row of spec/opcode_table.json.

A tag row is a line of a telegram: "the tag at the start of the line is its opcode, the parenthesised groups are its
operands" (30_encoding.md R100). Its constructor holds what follows the tag in the line (`g`), the widths or the
number rule of its row of `TAGTAB`, and for the sub-device rows the ordinal `n`. -/

namespace Sys2Proof

/-- The fields of `REC` that RD_REC can name (45_host.md R270, 10_state.md R31 to R49). -/
inductive RecField where
  | num (d : NumDest)
  | hdr | ts | equipId | msg
  | devN | pflogN
  | crcTx | crcCalc | crcValid
  | pflogTs (i : Nat) | pflogMant (i : Nat) | pflogFrac (i : Nat)
  | devTypeCode (k : Nat) | devEquipId (k : Nat) | devRdTs (k : Nat) | devRdVal (k : Nat) | devRdUnit (k : Nat)
deriving DecidableEq, Repr

/-- The parameters of `CFG` that RD_CFG can name (45_host.md R271, 00_scope.md R7). -/
inductive CfgField where
  | cap | fcEn | nsub | npf | pflogSkip | hdrMax | idMax | msgMax | unitMax | tagtab
  | devGas | devThermal | devWater
deriving DecidableEq, Repr

/-- Where an instruction's bytes stand: a host operation, or a line of the frame told by its position
(30_encoding.md R103). -/
inductive Port where
  /-- an operation the host issues (45_host.md R259) -/
  | host
  /-- line 0 of the frame -/
  | line0
  /-- a line `j >= 1` of the frame -/
  | line
  /-- the seven bytes from index `END` -/
  | trailer
deriving DecidableEq, Repr

/-- The instructions, in the order of the table. -/
inductive Instr where
  /-- `T01.VERSION`, default tag `1-3:0.2.8`: writes `REC.VERSION` (43_fields_main.md R200) -/
  | t01Version (r : NumRule) (g : List Byte)
  /-- `T02.TS`, default tag `0-0:1.0.0`: writes `REC.TS` (43_fields_main.md R201) -/
  | t02Ts (g : List Byte)
  /-- `T03.EQUIP_ID`, default tag `0-0:96.1.1`: writes `REC.EQUIP_ID` (43_fields_main.md R202) -/
  | t03EquipId (g : List Byte)
  /-- `T04.E_DEL_T1`, default tag `1-0:1.8.1`: writes `REC.E_DEL_T1` (43_fields_main.md R203) -/
  | t04EDelT1 (r : NumRule) (g : List Byte)
  /-- `T05.E_DEL_T2`, default tag `1-0:1.8.2`: writes `REC.E_DEL_T2` (43_fields_main.md R204) -/
  | t05EDelT2 (r : NumRule) (g : List Byte)
  /-- `T06.E_PROD_T1`, default tag `1-0:2.8.1`: writes `REC.E_PROD_T1` (43_fields_main.md R205) -/
  | t06EProdT1 (r : NumRule) (g : List Byte)
  /-- `T07.E_PROD_T2`, default tag `1-0:2.8.2`: writes `REC.E_PROD_T2` (43_fields_main.md R206) -/
  | t07EProdT2 (r : NumRule) (g : List Byte)
  /-- `T08.TARIFF`, default tag `0-0:96.14.0`: writes `REC.TARIFF` (43_fields_main.md R207) -/
  | t08Tariff (r : NumRule) (g : List Byte)
  /-- `T09.P_DEL`, default tag `1-0:1.7.0`: writes `REC.P_DEL` (43_fields_main.md R208) -/
  | t09PDel (r : NumRule) (g : List Byte)
  /-- `T10.P_PROD`, default tag `1-0:2.7.0`: writes `REC.P_PROD` (43_fields_main.md R209) -/
  | t10PProd (r : NumRule) (g : List Byte)
  /-- `T11.PF_SHORT`, default tag `0-0:96.7.21`: writes `REC.PF_SHORT` (43_fields_main.md R210) -/
  | t11PfShort (r : NumRule) (g : List Byte)
  /-- `T12.PF_LONG`, default tag `0-0:96.7.9`: writes `REC.PF_LONG` (43_fields_main.md R211) -/
  | t12PfLong (r : NumRule) (g : List Byte)
  /-- `T13.PFLOG`, default tag `1-0:99.97.0`: writes `REC.PFLOG[*], REC.PFLOG_N` (44_fields_log_subdev.md R240) -/
  | t13Pflog (g : List Byte)
  /-- `T14.SAG_L1`, default tag `1-0:32.32.0`: writes `REC.SAG_L1` (43_fields_main.md R213) -/
  | t14SagL1 (r : NumRule) (g : List Byte)
  /-- `T15.SAG_L2`, default tag `1-0:52.32.0`: writes `REC.SAG_L2` (43_fields_main.md R214) -/
  | t15SagL2 (r : NumRule) (g : List Byte)
  /-- `T16.SAG_L3`, default tag `1-0:72.32.0`: writes `REC.SAG_L3` (43_fields_main.md R215) -/
  | t16SagL3 (r : NumRule) (g : List Byte)
  /-- `T17.SWELL_L1`, default tag `1-0:32.36.0`: writes `REC.SWELL_L1` (43_fields_main.md R216) -/
  | t17SwellL1 (r : NumRule) (g : List Byte)
  /-- `T18.SWELL_L2`, default tag `1-0:52.36.0`: writes `REC.SWELL_L2` (43_fields_main.md R217) -/
  | t18SwellL2 (r : NumRule) (g : List Byte)
  /-- `T19.SWELL_L3`, default tag `1-0:72.36.0`: writes `REC.SWELL_L3` (43_fields_main.md R218) -/
  | t19SwellL3 (r : NumRule) (g : List Byte)
  /-- `T20.MSG`, default tag `0-0:96.13.0`: writes `REC.MSG` (43_fields_main.md R219) -/
  | t20Msg (g : List Byte)
  /-- `T21.V_L1`, default tag `1-0:32.7.0`: writes `REC.V_L1` (43_fields_main.md R220) -/
  | t21VL1 (r : NumRule) (g : List Byte)
  /-- `T22.V_L2`, default tag `1-0:52.7.0`: writes `REC.V_L2` (43_fields_main.md R221) -/
  | t22VL2 (r : NumRule) (g : List Byte)
  /-- `T23.V_L3`, default tag `1-0:72.7.0`: writes `REC.V_L3` (43_fields_main.md R222) -/
  | t23VL3 (r : NumRule) (g : List Byte)
  /-- `T24.I_L1`, default tag `1-0:31.7.0`: writes `REC.I_L1` (43_fields_main.md R223) -/
  | t24IL1 (r : NumRule) (g : List Byte)
  /-- `T25.I_L2`, default tag `1-0:51.7.0`: writes `REC.I_L2` (43_fields_main.md R224) -/
  | t25IL2 (r : NumRule) (g : List Byte)
  /-- `T26.I_L3`, default tag `1-0:71.7.0`: writes `REC.I_L3` (43_fields_main.md R225) -/
  | t26IL3 (r : NumRule) (g : List Byte)
  /-- `T27.P_DEL_L1`, default tag `1-0:21.7.0`: writes `REC.P_DEL_L1` (43_fields_main.md R226) -/
  | t27PDelL1 (r : NumRule) (g : List Byte)
  /-- `T28.P_DEL_L2`, default tag `1-0:41.7.0`: writes `REC.P_DEL_L2` (43_fields_main.md R227) -/
  | t28PDelL2 (r : NumRule) (g : List Byte)
  /-- `T29.P_DEL_L3`, default tag `1-0:61.7.0`: writes `REC.P_DEL_L3` (43_fields_main.md R228) -/
  | t29PDelL3 (r : NumRule) (g : List Byte)
  /-- `T30.P_PROD_L1`, default tag `1-0:22.7.0`: writes `REC.P_PROD_L1` (43_fields_main.md R229) -/
  | t30PProdL1 (r : NumRule) (g : List Byte)
  /-- `T31.P_PROD_L2`, default tag `1-0:42.7.0`: writes `REC.P_PROD_L2` (43_fields_main.md R230) -/
  | t31PProdL2 (r : NumRule) (g : List Byte)
  /-- `T32.P_PROD_L3`, default tag `1-0:62.7.0`: writes `REC.P_PROD_L3` (43_fields_main.md R231) -/
  | t32PProdL3 (r : NumRule) (g : List Byte)
  /-- `T33.DEV[N-1].TYPE_CODE`, default tag `0-N:24.1.0`: writes `REC.DEV[N-1].TYPE_CODE` (44_fields_log_subdev.md R242) -/
  | t33DevTypeCode (r : NumRule) (n : Nat) (g : List Byte)
  /-- `T34.DEV[N-1].EQUIP_ID`, default tag `0-N:96.1.0`: writes `REC.DEV[N-1].EQUIP_ID` (44_fields_log_subdev.md R243) -/
  | t34DevEquipId (n : Nat) (g : List Byte)
  /-- `T35.DEV[N-1].RD_TS`, default tag `0-N:24.2.1`: writes `REC.DEV[N-1].RD_TS, .RD_VAL, .RD_UNIT` (44_fields_log_subdev.md R244) -/
  | t35DevReading (w f : Nat) (n : Nat) (g : List Byte)
  /-- `HEADER`: line 0, `g` the bytes after the start marker (42_parser.md R174) -/
  | header (g : List Byte)
  /-- `ENDLINE`: end marker, four checksum characters, two terminator characters (42_parser.md R190 to R194) -/
  | endline (c1 c2 c3 c4 t1 t2 : Byte)
  /-- `UNRECOGNISED`: a line that matches no row (42_parser.md R179) -/
  | unrecognised (line : List Byte)
  /-- `POLL`: one invocation of the assembler on the bytes available in the byte source (41_assembler.md R158) -/
  | poll
  /-- `PARSE` (45_host.md R262, R263; 42_parser.md R170) -/
  | parse
  /-- `ABORT` (41_assembler.md R157) -/
  | abort
  /-- `ERRCLR` (45_host.md R264) -/
  | errclr
  /-- `RST` (45_host.md R260) -/
  | rst
  /-- `RD_STATUS` (45_host.md R265) -/
  | rdStatus
  /-- `RD_ERR` (45_host.md R266) -/
  | rdErr
  /-- `RD_LEN` (45_host.md R267) -/
  | rdLen
  /-- `RD_BUF(i)` (45_host.md R268) -/
  | rdBuf (i : Nat)
  /-- `RD_REC(f)` (45_host.md R270) -/
  | rdRec (f : RecField)
  /-- `RD_CFG(p)` (45_host.md R271) -/
  | rdCfg (p : CfgField)
  /-- `ARM`, first part of every POLL (41_assembler.md R150) -/
  | arm
  /-- `RX(b)` in Idle, `b` not the start marker (41_assembler.md R151) -/
  | rxIdleOther (b : Byte)
  /-- `RX(b)` in Idle, `b` the start marker (41_assembler.md R152) -/
  | rxIdleStart
  /-- `RX(b)` in Assembling with `LEN < CAP` (41_assembler.md R153) -/
  | rxAppend (b : Byte)
  /-- `RX(b)` in Assembling with `LEN = CAP` (41_assembler.md R154) -/
  | rxOverflow (b : Byte)
  /-- `CRC16`: the Checksum Engine on a byte string (40_crc.md R140 to R142) -/
  | crc16 (bs : List Byte)
deriving DecidableEq, Repr

end Sys2Proof
end

