-- ==== Sys2Proof/Decode.lean ====
section
/-! DEFINITION. The encodings of P1CORE: the default tag table, the decoder (total on any bytes, rejecting by name)
and the encoder, for the lines of a telegram (30_encoding.md) and for the host operations (45_host.md R259). -/

namespace Sys2Proof

/-- `isdigit` (00_scope.md R11). -/
def isDigit (b : Byte) : Bool := decide (0x30 ≤ b.toNat) && decide (b.toNat ≤ 0x39)

/-! ## Tag patterns and the default table (30_encoding.md R105, R110) -/

/-- A pattern of literal bytes only. -/
def mainTag (bs : List Nat) : List PatByte := bs.map fun n => .lit (BitVec.ofNat 8 n)

/-- `0-N` followed by literal bytes: the shape of the sub-device patterns (44_fields_log_subdev.md R241). -/
def deviceTag (bs : List Nat) : List PatByte := .lit 0x30#8 :: .lit 0x2D#8 :: .digit :: mainTag bs

/-- Rows T01 to T18 of the default table (30_encoding.md R110). -/
def defaultRows01to18 : List TagRow :=
  [⟨mainTag [0x31, 0x2D, 0x33, 0x3A, 0x30, 0x2E, 0x32, 0x2E, 0x38], .num .version .int⟩,
   ⟨mainTag [0x30, 0x2D, 0x30, 0x3A, 0x31, 0x2E, 0x30, 0x2E, 0x30], .ts⟩,
   ⟨mainTag [0x30, 0x2D, 0x30, 0x3A, 0x39, 0x36, 0x2E, 0x31, 0x2E, 0x31], .equipId⟩,
   ⟨mainTag [0x31, 0x2D, 0x30, 0x3A, 0x31, 0x2E, 0x38, 0x2E, 0x31], .num .eDelT1 (.fix 6 3)⟩,
   ⟨mainTag [0x31, 0x2D, 0x30, 0x3A, 0x31, 0x2E, 0x38, 0x2E, 0x32], .num .eDelT2 (.fix 6 3)⟩,
   ⟨mainTag [0x31, 0x2D, 0x30, 0x3A, 0x32, 0x2E, 0x38, 0x2E, 0x31], .num .eProdT1 (.fix 6 3)⟩,
   ⟨mainTag [0x31, 0x2D, 0x30, 0x3A, 0x32, 0x2E, 0x38, 0x2E, 0x32], .num .eProdT2 (.fix 6 3)⟩,
   ⟨mainTag [0x30, 0x2D, 0x30, 0x3A, 0x39, 0x36, 0x2E, 0x31, 0x34, 0x2E, 0x30], .num .tariff .int⟩,
   ⟨mainTag [0x31, 0x2D, 0x30, 0x3A, 0x31, 0x2E, 0x37, 0x2E, 0x30], .num .pDel (.fix 2 3)⟩,
   ⟨mainTag [0x31, 0x2D, 0x30, 0x3A, 0x32, 0x2E, 0x37, 0x2E, 0x30], .num .pProd (.fix 2 3)⟩,
   ⟨mainTag [0x30, 0x2D, 0x30, 0x3A, 0x39, 0x36, 0x2E, 0x37, 0x2E, 0x32, 0x31], .num .pfShort .int⟩,
   ⟨mainTag [0x30, 0x2D, 0x30, 0x3A, 0x39, 0x36, 0x2E, 0x37, 0x2E, 0x39], .num .pfLong .int⟩,
   ⟨mainTag [0x31, 0x2D, 0x30, 0x3A, 0x39, 0x39, 0x2E, 0x39, 0x37, 0x2E, 0x30], .pflog⟩,
   ⟨mainTag [0x31, 0x2D, 0x30, 0x3A, 0x33, 0x32, 0x2E, 0x33, 0x32, 0x2E, 0x30], .num .sagL1 .int⟩,
   ⟨mainTag [0x31, 0x2D, 0x30, 0x3A, 0x35, 0x32, 0x2E, 0x33, 0x32, 0x2E, 0x30], .num .sagL2 .int⟩,
   ⟨mainTag [0x31, 0x2D, 0x30, 0x3A, 0x37, 0x32, 0x2E, 0x33, 0x32, 0x2E, 0x30], .num .sagL3 .int⟩,
   ⟨mainTag [0x31, 0x2D, 0x30, 0x3A, 0x33, 0x32, 0x2E, 0x33, 0x36, 0x2E, 0x30], .num .swellL1 .int⟩,
   ⟨mainTag [0x31, 0x2D, 0x30, 0x3A, 0x35, 0x32, 0x2E, 0x33, 0x36, 0x2E, 0x30], .num .swellL2 .int⟩]

/-- Rows T19 to T35 of the default table (30_encoding.md R110). -/
def defaultRows19to35 : List TagRow :=
  [⟨mainTag [0x31, 0x2D, 0x30, 0x3A, 0x37, 0x32, 0x2E, 0x33, 0x36, 0x2E, 0x30], .num .swellL3 .int⟩,
   ⟨mainTag [0x30, 0x2D, 0x30, 0x3A, 0x39, 0x36, 0x2E, 0x31, 0x33, 0x2E, 0x30], .msg⟩,
   ⟨mainTag [0x31, 0x2D, 0x30, 0x3A, 0x33, 0x32, 0x2E, 0x37, 0x2E, 0x30], .num .vL1 (.fix 3 1)⟩,
   ⟨mainTag [0x31, 0x2D, 0x30, 0x3A, 0x35, 0x32, 0x2E, 0x37, 0x2E, 0x30], .num .vL2 (.fix 3 1)⟩,
   ⟨mainTag [0x31, 0x2D, 0x30, 0x3A, 0x37, 0x32, 0x2E, 0x37, 0x2E, 0x30], .num .vL3 (.fix 3 1)⟩,
   ⟨mainTag [0x31, 0x2D, 0x30, 0x3A, 0x33, 0x31, 0x2E, 0x37, 0x2E, 0x30], .num .iL1 .int⟩,
   ⟨mainTag [0x31, 0x2D, 0x30, 0x3A, 0x35, 0x31, 0x2E, 0x37, 0x2E, 0x30], .num .iL2 .int⟩,
   ⟨mainTag [0x31, 0x2D, 0x30, 0x3A, 0x37, 0x31, 0x2E, 0x37, 0x2E, 0x30], .num .iL3 .int⟩,
   ⟨mainTag [0x31, 0x2D, 0x30, 0x3A, 0x32, 0x31, 0x2E, 0x37, 0x2E, 0x30], .num .pDelL1 (.fix 2 3)⟩,
   ⟨mainTag [0x31, 0x2D, 0x30, 0x3A, 0x34, 0x31, 0x2E, 0x37, 0x2E, 0x30], .num .pDelL2 (.fix 2 3)⟩,
   ⟨mainTag [0x31, 0x2D, 0x30, 0x3A, 0x36, 0x31, 0x2E, 0x37, 0x2E, 0x30], .num .pDelL3 (.fix 2 3)⟩,
   ⟨mainTag [0x31, 0x2D, 0x30, 0x3A, 0x32, 0x32, 0x2E, 0x37, 0x2E, 0x30], .num .pProdL1 (.fix 2 3)⟩,
   ⟨mainTag [0x31, 0x2D, 0x30, 0x3A, 0x34, 0x32, 0x2E, 0x37, 0x2E, 0x30], .num .pProdL2 (.fix 2 3)⟩,
   ⟨mainTag [0x31, 0x2D, 0x30, 0x3A, 0x36, 0x32, 0x2E, 0x37, 0x2E, 0x30], .num .pProdL3 (.fix 2 3)⟩,
   ⟨deviceTag [0x3A, 0x32, 0x34, 0x2E, 0x31, 0x2E, 0x30], .devTypeCode .int⟩,
   ⟨deviceTag [0x3A, 0x39, 0x36, 0x2E, 0x31, 0x2E, 0x30], .devEquipId⟩,
   ⟨deviceTag [0x3A, 0x32, 0x34, 0x2E, 0x32, 0x2E, 0x31], .devReading 5 3⟩]

/-- The default tag table, in table order (30_encoding.md R110; notes/assumptions/2.md). -/
def defaultTagTable : List TagRow := defaultRows01to18 ++ defaultRows19to35

/-- The configuration of the spec's test vectors (00_scope.md R7, column "vectors use"): the one State.reset
holds (notes/assumptions/1.md). -/
def defaultConfig : Config where
  cap := 1024
  fcEn := true
  nsub := 4
  npf := 10
  pflogSkip := 1
  hdrMax := 64
  idMax := 96
  msgMax := 1024
  unitMax := 8
  tagtab := defaultTagTable
  devGas := 3#32
  devThermal := 4#32
  devWater := 7#32

/-! ## Lines of a telegram -/

/-- A pattern byte accepts a byte of the line (30_encoding.md R105). -/
def PatByte.accepts : PatByte → Byte → Bool
  | .lit c, b => b == c
  | .digit, b => isDigit b

/-- The prefix test of 30_encoding.md R105: what follows the tag in a line that matches the pattern. -/
def matchPattern : List PatByte → List Byte → Option (List Byte)
  | [], line => some line
  | _ :: _, [] => none
  | p :: ps, b :: bs => if p.accepts b then matchPattern ps bs else none

/-- "Rows are tested in table order and the first matching row is taken" (30_encoding.md R115): the action of that
row and what follows its tag. -/
def findRow : List TagRow → List Byte → Option (RowAction × List Byte)
  | [], _ => none
  | r :: rs, line =>
    match matchPattern r.pattern line with
    | some g => some (r.action, g)
    | none => findRow rs line

/-- The device ordinal `N = BUF[s+2] - 0x30` (42_parser.md R178). -/
def ordinalOf (line : List Byte) : Nat := (line.getD 2 0x30#8).toNat - 0x30

/-- The instruction of a row that writes one main-meter number. -/
def NumDest.toInstr (r : NumRule) (g : List Byte) : NumDest → Instr
  | .version => .t01Version r g
  | .eDelT1 => .t04EDelT1 r g
  | .eDelT2 => .t05EDelT2 r g
  | .eProdT1 => .t06EProdT1 r g
  | .eProdT2 => .t07EProdT2 r g
  | .tariff => .t08Tariff r g
  | .pDel => .t09PDel r g
  | .pProd => .t10PProd r g
  | .pfShort => .t11PfShort r g
  | .pfLong => .t12PfLong r g
  | .sagL1 => .t14SagL1 r g
  | .sagL2 => .t15SagL2 r g
  | .sagL3 => .t16SagL3 r g
  | .swellL1 => .t17SwellL1 r g
  | .swellL2 => .t18SwellL2 r g
  | .swellL3 => .t19SwellL3 r g
  | .vL1 => .t21VL1 r g
  | .vL2 => .t22VL2 r g
  | .vL3 => .t23VL3 r g
  | .iL1 => .t24IL1 r g
  | .iL2 => .t25IL2 r g
  | .iL3 => .t26IL3 r g
  | .pDelL1 => .t27PDelL1 r g
  | .pDelL2 => .t28PDelL2 r g
  | .pDelL3 => .t29PDelL3 r g
  | .pProdL1 => .t30PProdL1 r g
  | .pProdL2 => .t31PProdL2 r g
  | .pProdL3 => .t32PProdL3 r g

/-- The instruction of a row (42_parser.md R178). -/
def RowAction.toInstr (n : Nat) (g : List Byte) : RowAction → Instr
  | .num d r => d.toInstr r g
  | .ts => .t02Ts g
  | .equipId => .t03EquipId g
  | .msg => .t20Msg g
  | .pflog => .t13Pflog g
  | .devTypeCode r => .t33DevTypeCode r n g
  | .devEquipId => .t34DevEquipId n g
  | .devReading w f => .t35DevReading w f n g

/-- Dispatch of a line `j >= 1` (42_parser.md R178, R179). -/
def decodeLine (table : List TagRow) (line : List Byte) : Instr :=
  match findRow table line with
  | some (a, g) => a.toInstr (ordinalOf line) g
  | none => .unrecognised line

/-! ## Host operations: codes of 45_host.md R259, operand bytes of the model's own (notes/assumptions/6.md) -/

/-- The natural number whose bytes these are, least significant first. -/
def natOfBytes : List Byte → Nat
  | [] => 0
  | b :: bs => b.toNat + 256 * natOfBytes bs

/-- The `k` low bytes of a number, least significant first. -/
def bytesOfNat : Nat → Nat → List Byte
  | 0, _ => []
  | k + 1, n => BitVec.ofNat 8 n :: bytesOfNat k (n / 256)

/-- Numbers of the numeric fields in an RD_REC request. -/
def NumDest.code : NumDest → Nat
  | .version => 0
  | .eDelT1 => 1
  | .eDelT2 => 2
  | .eProdT1 => 3
  | .eProdT2 => 4
  | .tariff => 5
  | .pDel => 6
  | .pProd => 7
  | .pfShort => 8
  | .pfLong => 9
  | .sagL1 => 10
  | .sagL2 => 11
  | .sagL3 => 12
  | .swellL1 => 13
  | .swellL2 => 14
  | .swellL3 => 15
  | .vL1 => 16
  | .vL2 => 17
  | .vL3 => 18
  | .iL1 => 19
  | .iL2 => 20
  | .iL3 => 21
  | .pDelL1 => 22
  | .pDelL2 => 23
  | .pDelL3 => 24
  | .pProdL1 => 25
  | .pProdL2 => 26
  | .pProdL3 => 27

/-- The numeric fields in the order of their numbers. -/
def NumDest.all : List NumDest :=
  [.version, .eDelT1, .eDelT2, .eProdT1, .eProdT2, .tariff, .pDel, .pProd, .pfShort, .pfLong, .sagL1, .sagL2, .sagL3, .swellL1, .swellL2, .swellL3, .vL1, .vL2, .vL3, .iL1, .iL2, .iL3, .pDelL1, .pDelL2, .pDelL3, .pProdL1, .pProdL2, .pProdL3]

/-- The number of a field in an RD_REC request. -/
def RecField.code : RecField → Nat
  | .num d => d.code
  | .hdr => 28
  | .ts => 29
  | .equipId => 30
  | .msg => 31
  | .devN => 32
  | .pflogN => 33
  | .crcTx => 34
  | .crcCalc => 35
  | .crcValid => 36
  | .pflogTs _ => 37
  | .pflogMant _ => 38
  | .pflogFrac _ => 39
  | .devTypeCode _ => 40
  | .devEquipId _ => 41
  | .devRdTs _ => 42
  | .devRdVal _ => 43
  | .devRdUnit _ => 44

/-- The array index of a field in an RD_REC request, 0 for a field that is no array element. -/
def RecField.index : RecField → Nat
  | .num _ => 0
  | .hdr => 0
  | .ts => 0
  | .equipId => 0
  | .msg => 0
  | .devN => 0
  | .pflogN => 0
  | .crcTx => 0
  | .crcCalc => 0
  | .crcValid => 0
  | .pflogTs i => i
  | .pflogMant i => i
  | .pflogFrac i => i
  | .devTypeCode i => i
  | .devEquipId i => i
  | .devRdTs i => i
  | .devRdVal i => i
  | .devRdUnit i => i

/-- The field a request names by number and index. -/
def recFieldOf (code index : Nat) : Option RecField :=
  match code with
  | 28 => if index = 0 then some .hdr else none
  | 29 => if index = 0 then some .ts else none
  | 30 => if index = 0 then some .equipId else none
  | 31 => if index = 0 then some .msg else none
  | 32 => if index = 0 then some .devN else none
  | 33 => if index = 0 then some .pflogN else none
  | 34 => if index = 0 then some .crcTx else none
  | 35 => if index = 0 then some .crcCalc else none
  | 36 => if index = 0 then some .crcValid else none
  | 37 => some (.pflogTs index)
  | 38 => some (.pflogMant index)
  | 39 => some (.pflogFrac index)
  | 40 => some (.devTypeCode index)
  | 41 => some (.devEquipId index)
  | 42 => some (.devRdTs index)
  | 43 => some (.devRdVal index)
  | 44 => some (.devRdUnit index)
  | c => if index = 0 then (NumDest.all[c]?).map .num else none

/-- The parameters in the order of their numbers in an RD_CFG request. -/
def CfgField.all : List CfgField :=
  [.cap, .fcEn, .nsub, .npf, .pflogSkip, .hdrMax, .idMax, .msgMax, .unitMax, .tagtab, .devGas, .devThermal, .devWater]

/-- The number of a parameter in an RD_CFG request. -/
def CfgField.code : CfgField → Nat
  | .cap => 0
  | .fcEn => 1
  | .nsub => 2
  | .npf => 3
  | .pflogSkip => 4
  | .hdrMax => 5
  | .idMax => 6
  | .msgMax => 7
  | .unitMax => 8
  | .tagtab => 9
  | .devGas => 10
  | .devThermal => 11
  | .devWater => 12

/-- Why the decoder rejects bytes. -/
inductive DecodeError where
  /-- a host request with no byte -/
  | emptyRequest
  /-- codes 0, 6, 7 and 14 to 255 "are not operations" (45_host.md R259) -/
  | notAnOperation (code : Nat)
  /-- the operand bytes are not those of the operation -/
  | badOperand (code : Nat)
  /-- line 0 does not begin with the start marker; no frame is such (10_state.md R52 I3) -/
  | notAHeader
  /-- not the end marker and six bytes; no complete frame is such (10_state.md R52 I5) -/
  | notATrailer
deriving DecidableEq, Repr

/-- An operation without operands. -/
def plainOperation (code : Nat) (i : Instr) : List Byte → Except DecodeError Instr
  | [] => .ok i
  | _ :: _ => .error (.badOperand code)

/-- A host operation from its code (45_host.md R259) and operand bytes. The model's choice (DESIGN CHOICE,
notes/assumptions/6.md): the operand bytes; the index of RD_BUF and RD_REC always has 32 bits, whatever `CAP`, so for a
`CAP` above `2^32` (20_memory.md R71 gives an index `ceil(log2(CAP+1))` bits) a request cannot name the indices from
`2^32` on. -/
def decodeHost : List Byte → Except DecodeError Instr
  | [] => .error .emptyRequest
  | c :: ops =>
    match c.toNat with
    | 1 => plainOperation 1 .poll ops
    | 2 => plainOperation 2 .parse ops
    | 3 => plainOperation 3 .abort ops
    | 4 => plainOperation 4 .errclr ops
    | 5 => plainOperation 5 .rst ops
    | 8 => plainOperation 8 .rdStatus ops
    | 9 => plainOperation 9 .rdErr ops
    | 10 => plainOperation 10 .rdLen ops
    | 11 => if ops.length = 4 then .ok (.rdBuf (natOfBytes ops)) else .error (.badOperand 11)
    | 12 =>
      match ops with
      | f :: is =>
        if is.length = 4 then
          match recFieldOf f.toNat (natOfBytes is) with
          | some r => .ok (.rdRec r)
          | none => .error (.badOperand 12)
        else .error (.badOperand 12)
      | [] => .error (.badOperand 12)
    | 13 =>
      match ops with
      | [p] =>
        match CfgField.all[p.toNat]? with
        | some q => .ok (.rdCfg q)
        | none => .error (.badOperand 13)
      | _ => .error (.badOperand 13)
    | n => .error (.notAnOperation n)

/-! ## The decoder -/

/-- The instruction that stands at a port (30_encoding.md R103: a line's format is told by its position and first
bytes). -/
def decode (port : Port) (table : List TagRow) (bytes : List Byte) : Except DecodeError Instr :=
  match port with
  | .host => decodeHost bytes
  | .line0 =>
    match bytes with
    | [] => .error .notAHeader
    | b :: g => if b = startMarker then .ok (.header g) else .error .notAHeader
  | .line => .ok (decodeLine table bytes)
  | .trailer =>
    match bytes with
    | [b, c1, c2, c3, c4, t1, t2] =>
      if b = endMarker then .ok (.endline c1 c2 c3 c4 t1 t2) else .error .notATrailer
    | _ => .error .notATrailer

/-- Which port the bytes of a row of spec/opcode_table.json belong to: its `match` column holds an operation code, a
tag, `'/'` or `'!'` (30_encoding.md R121; notes/assumptions/17.md). -/
def portOfBytes : List Byte → Port
  | [] => .line
  | b :: _ =>
    if b = startMarker then .line0
    else if b = endMarker then .trailer
    else if b.toNat < 0x10 then .host
    else .line

/-- How many bytes a host operation has, by its code. -/
def hostLength : List Byte → Nat
  | [] => 0
  | c :: _ =>
    match c.toNat with
    | 11 => 5
    | 12 => 6
    | 13 => 2
    | _ => 1

/-- The bytes of an instruction of which a row of the table gives `nbits` bits: those, and zero operand bytes up to
the instruction's length, which ends a host operation and the end line. A line has no further bytes. -/
def tableBytes (nbits w : Nat) : List Byte :=
  let bs := bytesOfNat (nbits / 8) w
  match portOfBytes bs with
  | .host => (bs ++ List.replicate (hostLength bs - bs.length) 0x00#8).take (hostLength bs)
  | .trailer => (bs ++ List.replicate (7 - bs.length) 0x00#8).take 7
  | .line0 | .line => bs

/-- The instruction the decoder reads from an instruction whose bits are `w`, under the default table. -/
def decodeTableWord (nbits w : Nat) : Option Instr :=
  let bs := tableBytes nbits w
  match decode (portOfBytes bs) defaultTagTable bs with
  | .ok i => some i
  | .error _ => none

/-! ## The encoder -/

/-- The byte of a tag at a pattern position, for the ordinal `n`. -/
def PatByte.byteFor (n : Nat) : PatByte → Byte
  | .lit b => b
  | .digit => BitVec.ofNat 8 (0x30 + n)

/-- The line of a row: its tag for the ordinal `n`, then `g` (30_encoding.md R103 format D). -/
def encodeRow (table : List TagRow) (a : RowAction) (n : Nat) (g : List Byte) : Option (List Byte) :=
  (table.find? fun r => r.action == a).map fun r => r.pattern.map (PatByte.byteFor n) ++ g

/-- The bytes of an instruction: a line, the trailer, or a host request. The micro-operations and CRC16 have no code
(45_host.md R259, 30_encoding.md R121). -/
def encode (table : List TagRow) : Instr → Option (List Byte)
  | .t01Version r g => encodeRow table (.num .version r) 0 g
  | .t02Ts g => encodeRow table .ts 0 g
  | .t03EquipId g => encodeRow table .equipId 0 g
  | .t04EDelT1 r g => encodeRow table (.num .eDelT1 r) 0 g
  | .t05EDelT2 r g => encodeRow table (.num .eDelT2 r) 0 g
  | .t06EProdT1 r g => encodeRow table (.num .eProdT1 r) 0 g
  | .t07EProdT2 r g => encodeRow table (.num .eProdT2 r) 0 g
  | .t08Tariff r g => encodeRow table (.num .tariff r) 0 g
  | .t09PDel r g => encodeRow table (.num .pDel r) 0 g
  | .t10PProd r g => encodeRow table (.num .pProd r) 0 g
  | .t11PfShort r g => encodeRow table (.num .pfShort r) 0 g
  | .t12PfLong r g => encodeRow table (.num .pfLong r) 0 g
  | .t13Pflog g => encodeRow table .pflog 0 g
  | .t14SagL1 r g => encodeRow table (.num .sagL1 r) 0 g
  | .t15SagL2 r g => encodeRow table (.num .sagL2 r) 0 g
  | .t16SagL3 r g => encodeRow table (.num .sagL3 r) 0 g
  | .t17SwellL1 r g => encodeRow table (.num .swellL1 r) 0 g
  | .t18SwellL2 r g => encodeRow table (.num .swellL2 r) 0 g
  | .t19SwellL3 r g => encodeRow table (.num .swellL3 r) 0 g
  | .t20Msg g => encodeRow table .msg 0 g
  | .t21VL1 r g => encodeRow table (.num .vL1 r) 0 g
  | .t22VL2 r g => encodeRow table (.num .vL2 r) 0 g
  | .t23VL3 r g => encodeRow table (.num .vL3 r) 0 g
  | .t24IL1 r g => encodeRow table (.num .iL1 r) 0 g
  | .t25IL2 r g => encodeRow table (.num .iL2 r) 0 g
  | .t26IL3 r g => encodeRow table (.num .iL3 r) 0 g
  | .t27PDelL1 r g => encodeRow table (.num .pDelL1 r) 0 g
  | .t28PDelL2 r g => encodeRow table (.num .pDelL2 r) 0 g
  | .t29PDelL3 r g => encodeRow table (.num .pDelL3 r) 0 g
  | .t30PProdL1 r g => encodeRow table (.num .pProdL1 r) 0 g
  | .t31PProdL2 r g => encodeRow table (.num .pProdL2 r) 0 g
  | .t32PProdL3 r g => encodeRow table (.num .pProdL3 r) 0 g
  | .t33DevTypeCode r n g => encodeRow table (.devTypeCode r) n g
  | .t34DevEquipId n g => encodeRow table .devEquipId n g
  | .t35DevReading w f n g => encodeRow table (.devReading w f) n g
  | .header g => some (startMarker :: g)
  | .endline c1 c2 c3 c4 t1 t2 => some [endMarker, c1, c2, c3, c4, t1, t2]
  | .unrecognised line => some line
  | .poll => some [0x01#8]
  | .parse => some [0x02#8]
  | .abort => some [0x03#8]
  | .errclr => some [0x04#8]
  | .rst => some [0x05#8]
  | .rdStatus => some [0x08#8]
  | .rdErr => some [0x09#8]
  | .rdLen => some [0x0A#8]
  | .rdBuf i => some (0x0B#8 :: bytesOfNat 4 i)
  | .rdRec f => some (0x0C#8 :: BitVec.ofNat 8 f.code :: bytesOfNat 4 f.index)
  | .rdCfg p => some [0x0D#8, BitVec.ofNat 8 p.code]
  | .arm | .rxIdleOther _ | .rxIdleStart | .rxAppend _ | .rxOverflow _ | .crc16 _ => none

/-- The port an instruction's bytes stand at. -/
def Instr.port : Instr → Port
  | .t01Version _ _ => .line
  | .t02Ts _ => .line
  | .t03EquipId _ => .line
  | .t04EDelT1 _ _ => .line
  | .t05EDelT2 _ _ => .line
  | .t06EProdT1 _ _ => .line
  | .t07EProdT2 _ _ => .line
  | .t08Tariff _ _ => .line
  | .t09PDel _ _ => .line
  | .t10PProd _ _ => .line
  | .t11PfShort _ _ => .line
  | .t12PfLong _ _ => .line
  | .t13Pflog _ => .line
  | .t14SagL1 _ _ => .line
  | .t15SagL2 _ _ => .line
  | .t16SagL3 _ _ => .line
  | .t17SwellL1 _ _ => .line
  | .t18SwellL2 _ _ => .line
  | .t19SwellL3 _ _ => .line
  | .t20Msg _ => .line
  | .t21VL1 _ _ => .line
  | .t22VL2 _ _ => .line
  | .t23VL3 _ _ => .line
  | .t24IL1 _ _ => .line
  | .t25IL2 _ _ => .line
  | .t26IL3 _ _ => .line
  | .t27PDelL1 _ _ => .line
  | .t28PDelL2 _ _ => .line
  | .t29PDelL3 _ _ => .line
  | .t30PProdL1 _ _ => .line
  | .t31PProdL2 _ _ => .line
  | .t32PProdL3 _ _ => .line
  | .t33DevTypeCode _ _ _ => .line
  | .t34DevEquipId _ _ => .line
  | .t35DevReading _ _ _ _ => .line
  | .unrecognised _ => .line
  | .header _ => .line0
  | .endline _ _ _ _ _ _ => .trailer
  | .poll | .parse | .abort | .errclr | .rst | .rdStatus | .rdErr | .rdLen | .rdBuf _ | .rdRec _ | .rdCfg _ => .host
  | .arm | .rxIdleOther _ | .rxIdleStart | .rxAppend _ | .rxOverflow _ | .crc16 _ => .host

end Sys2Proof
end

