-- ==== Sys2Proof/Machine/State.lean ====
section
/-! DEFINITION. The state of P1CORE as plain data (10_state.md), the reasons a step can stop, and the state after
reset. Every rule number in this file is of 10_state.md unless another file is named. -/

namespace Sys2Proof.Machine

/-- The frame buffer's storage: addresses strictly rising, no cell that equals what an unlisted address reads as. -/
abbrev Memory := List Host.Cell

/-- `ST` (R21). -/
inductive AsmState where
  | idle | assembling | ready
deriving DecidableEq, Repr

/-- `RTS`, the flow-control output: driven high, or not driven (R27). -/
inductive Rts where
  | high | hiZ
deriving DecidableEq, Repr

/-- `ERR`, three sticky bits (R25). -/
structure Err where
  /-- bit 0: a frame exceeded `CAP` -/
  ovf : Bool
  /-- bit 1: malformed completion signature -/
  sig : Bool
  /-- bit 2: the host abandoned a frame -/
  abt : Bool
deriving DecidableEq, Repr

/-- One entry of the power-failure log (R48); the duration is `mant / 10^frac`. -/
structure LogEntry where
  /-- `TS` -/
  ts : List Byte
  /-- `DUR_MANT` -/
  mant : Word32
  /-- `DUR_FRAC` -/
  frac : BitVec 4
deriving DecidableEq, Repr

/-- One sub-device slot (R49). -/
structure Device where
  /-- `TYPE_CODE` -/
  typeCode : Word32
  /-- `EQUIP_ID` -/
  equipId : List Byte
  /-- `RD_TS` -/
  rdTs : List Byte
  /-- `RD_VAL` -/
  rdVal : Word32
  /-- `RD_UNIT` -/
  rdUnit : List Byte
deriving DecidableEq, Repr

/-- The device type, a function of the stored code (R49). -/
inductive DeviceType where
  | gas | thermal | water
  | unknown (code : Word32)
deriving DecidableEq, Repr

/-- `REC`, the Decoded Record (R30 to R49). String registers hold at most their capacity (R45) and timestamp registers
13 bytes (R46): `RecordWf` in Safety.lean. -/
structure Record where
  /-- `HDR` (R31) -/
  hdr : List Byte
  /-- `TS` (R33) -/
  ts : List Byte
  /-- `EQUIP_ID` (R34) -/
  equipId : List Byte
  /-- `MSG` (R40) -/
  msg : List Byte
  /-- `VERSION` (R32) -/
  version : Word32
  /-- `E_DEL_T1` (R35) -/
  eDelT1 : Word32
  /-- `E_DEL_T2` (R35) -/
  eDelT2 : Word32
  /-- `E_PROD_T1` (R35) -/
  eProdT1 : Word32
  /-- `E_PROD_T2` (R35) -/
  eProdT2 : Word32
  /-- `TARIFF` (R36) -/
  tariff : Word32
  /-- `P_DEL` (R37) -/
  pDel : Word32
  /-- `P_PROD` (R37) -/
  pProd : Word32
  /-- `PF_SHORT` (R38) -/
  pfShort : Word32
  /-- `PF_LONG` (R38) -/
  pfLong : Word32
  /-- `SAG_L1` (R39) -/
  sagL1 : Word32
  /-- `SAG_L2` (R39) -/
  sagL2 : Word32
  /-- `SAG_L3` (R39) -/
  sagL3 : Word32
  /-- `SWELL_L1` (R39) -/
  swellL1 : Word32
  /-- `SWELL_L2` (R39) -/
  swellL2 : Word32
  /-- `SWELL_L3` (R39) -/
  swellL3 : Word32
  /-- `V_L1` (R41) -/
  vL1 : Word32
  /-- `V_L2` (R41) -/
  vL2 : Word32
  /-- `V_L3` (R41) -/
  vL3 : Word32
  /-- `I_L1` (R41) -/
  iL1 : Word32
  /-- `I_L2` (R41) -/
  iL2 : Word32
  /-- `I_L3` (R41) -/
  iL3 : Word32
  /-- `P_DEL_L1` (R42) -/
  pDelL1 : Word32
  /-- `P_DEL_L2` (R42) -/
  pDelL2 : Word32
  /-- `P_DEL_L3` (R42) -/
  pDelL3 : Word32
  /-- `P_PROD_L1` (R42) -/
  pProdL1 : Word32
  /-- `P_PROD_L2` (R42) -/
  pProdL2 : Word32
  /-- `P_PROD_L3` (R42) -/
  pProdL3 : Word32
  /-- `DEV_N` (R43) -/
  devN : Nat
  /-- `PFLOG_N` (R48) -/
  pflogN : Nat
  /-- `PFLOG[0 .. NPF-1]` (R48) -/
  pflog : List LogEntry
  /-- `DEV[0 .. NSUB-1]` (R49) -/
  dev : List Device
  /-- `CRC_TX` (R44) -/
  crcTx : Word16
  /-- `CRC_CALC` (R44) -/
  crcCalc : Word16
  /-- `CRC_VALID` (R44) -/
  crcValid : Bool
deriving DecidableEq, Repr

/-- Which atomic operation is in flight. Every operation of the host is one transition (R20): `exec` of POLL or PARSE
does the whole of it, and `act` is `idle` before and after. The other values are the points inside one POLL (before
and after its ARM) and inside one PARSE (the line cursor `LP` of R29 and the line number), at which `step` runs one
micro-operation or one line (45_host.md R259, R272 `busy`; notes/assumptions/4.md). -/
inductive Activity where
  | idle
  | arming
  | receiving
  | parsing (lp j : Nat)
deriving DecidableEq, Repr

/-- What the environment does next: the meter's bytes reach the byte source (R50), or the host issues the operation
with these bytes (45_host.md R259; notes/assumptions/5.md). -/
inductive Input where
  | arrive (bs : List Byte)
  | operation (bytes : List Byte)
deriving DecidableEq, Repr

/-- What a read operation returned to the host (45_host.md R265 to R271; notes/assumptions/7.md). -/
inductive ReadValue where
  /-- no read has been issued -/
  | nothing
  | status (v : BitVec 8)
  | err (v : BitVec 3)
  | number (v : Nat)
  | byte (v : Byte)
  | word (v : Word32)
  | half (v : Word16)
  | nibble (v : BitVec 4)
  | flag (v : Bool)
  | text (v : List Byte)
  | table (v : List TagRow)
deriving DecidableEq, Repr

/-- The state. `q`, `inbox` and `out` are the environment's, `act` and `crcReg` are not observable by the host. -/
structure State where
  /-- `CFG`, constant (R28) -/
  cfg : Config
  /-- `ST` (R21) -/
  st : AsmState
  /-- `LEN` (R22) -/
  len : Nat
  /-- the storage of `BUF` (R23); only indices below `LEN` are observable -/
  buf : Memory
  /-- `ERR` (R25) -/
  err : Err
  /-- `RTS` (R27) -/
  rts : Rts
  /-- `REC` (R30) -/
  record : Record
  /-- `CRCREG` (40_crc.md R142) -/
  crcReg : Word16
  /-- the operation in flight, with `LP` (R29) -/
  act : Activity
  /-- `Q`, the bytes currently available in the byte source (R50) -/
  q : List Byte
  /-- what the host and the meter do next -/
  inbox : List Input
  /-- what the last read returned -/
  out : ReadValue
deriving DecidableEq, Repr

/-- The machine has no fault of its own (00_scope.md R12). -/
inductive Fault where
  /-- An access to the frame buffer at an index that does not exist, `CAP` or above (20_memory.md R70, R74). Raised by a
  write of RX and by PARSE's fetch; only in states with `CAP = 0` or `LEN > CAP`, which no run from a legal
  configuration reaches (R52 I1). Safe: the model stops (notes/assumptions/20.md). -/
  | noSuchAddress (index : Nat)
deriving DecidableEq, Repr

/-- Why an operation is refused: its precondition does not hold (00_scope.md R12). -/
inductive Refusal where
  /-- `exec` has no meaning for the instruction. Safe. -/
  | notModelled (mnemonic : String)
  /-- A case of RX outside its condition (41_assembler.md R151 to R155): POLL never performs it. Raised by the four RX
  meanings. Safe. -/
  | rxCaseNotEnabled
  /-- RD_BUF with an index the index port cannot carry (45_host.md R268, 93_implementation_defined.md U8). Raised by
  RD_BUF. Safe. -/
  | indexOutsidePort (index : Nat)
  /-- RD_REC of an array element that does not exist (R48, R49). Raised by RD_REC. Safe. -/
  | noSuchField (f : RecField)
  /-- The bytes fetched are no instruction at their port. Raised by `step`; for a host request only when the code or its
  operand is not in the list (45_host.md R259, 60_exceptions.md R293), which a host cannot issue; for a frame only in
  states no run reaches. Safe. -/
  | undecodable (e : DecodeError)
deriving DecidableEq, Repr

/-- The default of a timestamp register (R46, R47). -/
def defaultStamp : List Byte := List.replicate stampLength 0x00#8

/-- A default log entry (R47). -/
def defaultEntry : LogEntry := ⟨defaultStamp, 0#32, 0#4⟩

/-- A default sub-device slot (R47). -/
def defaultDevice : Device := ⟨0#32, [], defaultStamp, 0#32, []⟩

/-- The default record (R47). -/
def defaultRecord (c : Config) : Record where
  hdr := []
  ts := defaultStamp
  equipId := []
  msg := []
  version := 0#32
  eDelT1 := 0#32
  eDelT2 := 0#32
  eProdT1 := 0#32
  eProdT2 := 0#32
  tariff := 0#32
  pDel := 0#32
  pProd := 0#32
  pfShort := 0#32
  pfLong := 0#32
  sagL1 := 0#32
  sagL2 := 0#32
  sagL3 := 0#32
  swellL1 := 0#32
  swellL2 := 0#32
  swellL3 := 0#32
  vL1 := 0#32
  vL2 := 0#32
  vL3 := 0#32
  iL1 := 0#32
  iL2 := 0#32
  iL3 := 0#32
  pDelL1 := 0#32
  pDelL2 := 0#32
  pDelL3 := 0#32
  pProdL1 := 0#32
  pProdL2 := 0#32
  pProdL3 := 0#32
  devN := 0
  pflogN := 0
  pflog := List.replicate c.npf defaultEntry
  dev := List.replicate c.nsub defaultDevice
  crcTx := 0#16
  crcCalc := 0#16
  crcValid := false

/-- The machine right after reset, for any configuration: the table of R53. The storage of `BUF` lists nothing
(notes/assumptions/8.md), `CRCREG` is 0 (notes/assumptions/9.md), and the environment is silent
(notes/assumptions/19.md). -/
def State.resetWith (c : Config) : State where
  cfg := c
  st := .idle
  len := 0
  buf := []
  err := ⟨false, false, false⟩
  rts := .hiZ
  record := defaultRecord c
  crcReg := 0#16
  act := .idle
  q := []
  inbox := []
  out := .nothing

/-- The machine right after reset, with the configuration of the spec's vectors (notes/assumptions/1.md). -/
def State.reset : State := State.resetWith defaultConfig

end Sys2Proof.Machine
end

