-- ==== Sys2Proof/Machine/Ops.lean ====
section
/-! DEFINITION. The named operations over the state: updates, the frame buffer, the record's registers, and the events
(60_exceptions.md), which are this block's exceptions: each is a fixed state change, there is no handler and so no
return (R292, R300). -/

namespace Sys2Proof.Machine

/-- What one operation answers. -/
abbrev Result := Host.Outcome State Fault Refusal

/-- Statements sequenced with `;` (00_scope.md R10). -/
def andThen (r : Result) (k : State → Result) : Result :=
  match r with
  | .next s => k s
  | .fault f => .fault f
  | .refused e => .refused e

/-! ## Updates of one field -/

/-- Set ST. -/
def State.withSt (s : State) (v : AsmState) : State :=
  { s with st := v }

/-- Set LEN. -/
def State.withLen (s : State) (v : Nat) : State :=
  { s with len := v }

/-- Set BUF. -/
def State.withBuf (s : State) (v : Memory) : State :=
  { s with buf := v }

/-- Set ERR. -/
def State.withErr (s : State) (v : Err) : State :=
  { s with err := v }

/-- Set RTS. -/
def State.withRts (s : State) (v : Rts) : State :=
  { s with rts := v }

/-- Set REC. -/
def State.withRecord (s : State) (v : Record) : State :=
  { s with record := v }

/-- Set CRCREG. -/
def State.withCrcReg (s : State) (v : Word16) : State :=
  { s with crcReg := v }

/-- Set the operation in flight. -/
def State.withAct (s : State) (v : Activity) : State :=
  { s with act := v }

/-- Set the byte source. -/
def State.withQ (s : State) (v : List Byte) : State :=
  { s with q := v }

/-- Set the environment. -/
def State.withInbox (s : State) (v : List Input) : State :=
  { s with inbox := v }

/-- Set the value read. -/
def State.withOut (s : State) (v : ReadValue) : State :=
  { s with out := v }

/-! ## Registers of the record -/

/-- Set `REC.HDR`. -/
def Record.withHdr (r : Record) (v : List Byte) : Record :=
  { r with hdr := v }

/-- Set `REC.TS`. -/
def Record.withTs (r : Record) (v : List Byte) : Record :=
  { r with ts := v }

/-- Set `REC.EQUIP_ID`. -/
def Record.withEquipId (r : Record) (v : List Byte) : Record :=
  { r with equipId := v }

/-- Set `REC.MSG`. -/
def Record.withMsg (r : Record) (v : List Byte) : Record :=
  { r with msg := v }

/-- Set `REC.DEV_N`. -/
def Record.withDevN (r : Record) (v : Nat) : Record :=
  { r with devN := v }

/-- Set `REC.PFLOG_N`. -/
def Record.withPflogN (r : Record) (v : Nat) : Record :=
  { r with pflogN := v }

/-- Set `REC.PFLOG`. -/
def Record.withPflog (r : Record) (v : List LogEntry) : Record :=
  { r with pflog := v }

/-- Set `REC.DEV`. -/
def Record.withDev (r : Record) (v : List Device) : Record :=
  { r with dev := v }

/-- Set `REC.CRC_TX`. -/
def Record.withCrcTx (r : Record) (v : Word16) : Record :=
  { r with crcTx := v }

/-- Set `REC.CRC_CALC`. -/
def Record.withCrcCalc (r : Record) (v : Word16) : Record :=
  { r with crcCalc := v }

/-- Set `REC.CRC_VALID`. -/
def Record.withCrcValid (r : Record) (v : Bool) : Record :=
  { r with crcValid := v }

/-- Read a numeric field. -/
def Record.getNum (r : Record) : NumDest → Word32
  | .version => r.version
  | .eDelT1 => r.eDelT1
  | .eDelT2 => r.eDelT2
  | .eProdT1 => r.eProdT1
  | .eProdT2 => r.eProdT2
  | .tariff => r.tariff
  | .pDel => r.pDel
  | .pProd => r.pProd
  | .pfShort => r.pfShort
  | .pfLong => r.pfLong
  | .sagL1 => r.sagL1
  | .sagL2 => r.sagL2
  | .sagL3 => r.sagL3
  | .swellL1 => r.swellL1
  | .swellL2 => r.swellL2
  | .swellL3 => r.swellL3
  | .vL1 => r.vL1
  | .vL2 => r.vL2
  | .vL3 => r.vL3
  | .iL1 => r.iL1
  | .iL2 => r.iL2
  | .iL3 => r.iL3
  | .pDelL1 => r.pDelL1
  | .pDelL2 => r.pDelL2
  | .pDelL3 => r.pDelL3
  | .pProdL1 => r.pProdL1
  | .pProdL2 => r.pProdL2
  | .pProdL3 => r.pProdL3

/-- Write a numeric field. -/
def Record.setNum (r : Record) (d : NumDest) (v : Word32) : Record :=
  match d with
  | .version => { r with version := v }
  | .eDelT1 => { r with eDelT1 := v }
  | .eDelT2 => { r with eDelT2 := v }
  | .eProdT1 => { r with eProdT1 := v }
  | .eProdT2 => { r with eProdT2 := v }
  | .tariff => { r with tariff := v }
  | .pDel => { r with pDel := v }
  | .pProd => { r with pProd := v }
  | .pfShort => { r with pfShort := v }
  | .pfLong => { r with pfLong := v }
  | .sagL1 => { r with sagL1 := v }
  | .sagL2 => { r with sagL2 := v }
  | .sagL3 => { r with sagL3 := v }
  | .swellL1 => { r with swellL1 := v }
  | .swellL2 => { r with swellL2 := v }
  | .swellL3 => { r with swellL3 := v }
  | .vL1 => { r with vL1 := v }
  | .vL2 => { r with vL2 := v }
  | .vL3 => { r with vL3 := v }
  | .iL1 => { r with iL1 := v }
  | .iL2 => { r with iL2 := v }
  | .iL3 => { r with iL3 := v }
  | .pDelL1 => { r with pDelL1 := v }
  | .pDelL2 => { r with pDelL2 := v }
  | .pDelL3 => { r with pDelL3 := v }
  | .pProdL1 => { r with pProdL1 := v }
  | .pProdL2 => { r with pProdL2 := v }
  | .pProdL3 => { r with pProdL3 := v }

/-- What a string register of capacity `m` holds after `t` is stored into it (10_state.md R45). -/
def truncate (m : Nat) (t : List Byte) : List Byte := t.take m

/-- Apply `f` to slot `k` of the sub-device array, if it exists. -/
def Record.modifyDev (r : Record) (k : Nat) (f : Device → Device) : Record :=
  r.withDev (r.dev.modify k f)

/-- Overwrite the first entries of the power-failure log (44_fields_log_subdev.md R240: slots at and above
`es.length` keep their values; after two log lines this stands against 10_state.md R48, notes/assumptions/13.md). -/
def Record.storeLog (r : Record) (es : List LogEntry) : Record :=
  (r.withPflog (es ++ r.pflog.drop es.length)).withPflogN es.length

/-! ## The frame buffer -/

/-- What an unlisted address reads as (notes/assumptions/8.md). -/
abbrev unlistedByte : Byte := 0x00#8

/-- The byte stored at an address. -/
def Memory.read : Memory → Nat → Byte
  | [], _ => unlistedByte
  | (k, v) :: m, a => if k = a then v else Memory.read m a

/-- Store a byte, keeping the canonical form. -/
def Memory.write : Memory → Nat → Byte → Memory
  | [], a, b => if b = unlistedByte then [] else [(a, b)]
  | (k, v) :: m, a, b =>
    if a < k then (if b = unlistedByte then (k, v) :: m else (a, b) :: (k, v) :: m)
    else if a = k then (if b = unlistedByte then m else (a, b) :: m)
    else (k, v) :: Memory.write m a b

/-- Every address of the memory is at least `lo`, addresses rise strictly, and no cell equals what an unlisted address
reads as. -/
def Memory.wfFrom : Nat → Memory → Bool
  | _, [] => true
  | lo, (k, v) :: m => decide (lo ≤ k) && v != unlistedByte && Memory.wfFrom (k + 1) m

/-- The canonical form. -/
def Memory.wf (m : Memory) : Bool := Memory.wfFrom 0 m

/-- `BUF[a .. a+n)` (00_scope.md R9). -/
def Memory.range (m : Memory) (a : Nat) : Nat → List Byte
  | 0 => []
  | n + 1 => m.read a :: Memory.range m (a + 1) n

/-- `MemWrite(a, 1, b)` (00_scope.md R11): the index must exist (20_memory.md R70). -/
def memWrite (a : Nat) (b : Byte) (s : State) : Result :=
  if a < s.cfg.cap then .next (s.withBuf (s.buf.write a b)) else .fault (.noSuchAddress a)

/-- The frame `BUF[0 .. LEN)` (00_scope.md R14). -/
def State.frame (s : State) : List Byte := s.buf.range 0 s.len

/-- Read the frame; the indices must exist (20_memory.md R70; notes/assumptions/14.md). `ST` is not asked for here:
PARSE asks for it before it reads, the instructions of a parse executed alone do not (notes/assumptions/26.md). -/
def withFrame (s : State) (k : List Byte → Result) : Result :=
  if s.len ≤ s.cfg.cap then k s.frame else .fault (.noSuchAddress s.cfg.cap)

/-! ## Events -/

/-- The seven events (60_exceptions.md R280). -/
inductive Event where
  | framingOvf | framingSig | abort | skip | drop | checksumMismatch | unrecognisedTag
deriving DecidableEq, Repr

/-- The state change of an event (60_exceptions.md R281 to R287, R291): nothing else changes, in particular not
`RTS`. What the operation does next is the operation's own. -/
def raise : Event → State → State
  | .framingOvf, s => ((s.withErr { s.err with ovf := true }).withLen 0).withSt .idle
  | .framingSig, s =>
    (s.withErr { s.err with sig := true }).withRecord ((s.record.withCrcTx 0#16).withCrcValid false)
  | .abort, s => ((s.withErr { s.err with abt := true }).withLen 0).withSt .idle
  | .skip, s => s
  | .drop, s => s
  | .checksumMismatch, s => s.withRecord (s.record.withCrcValid false)
  | .unrecognisedTag, s => s

/-- Commit of a tag rule: it "evaluates every primitive first and writes only if none skipped" (42_parser.md R189);
otherwise `skip` (R181). -/
def commit {α : Type} (v : Option α) (write : α → Record → Record) (s : State) : State :=
  match v with
  | some a => s.withRecord (write a s.record)
  | none => raise .skip s

/-- Routing of the sub-device rows (44_fields_log_subdev.md R241): ordinal `n` names slot `n-1`, ordinal 0 or above
`NSUB` is dropped. -/
def route (n : Nat) (k : Nat → State → State) (s : State) : State :=
  if n = 0 ∨ s.cfg.nsub < n then raise .drop s else k (n - 1) s

/-- Step 6 of PARSE (42_parser.md R195). -/
def clearFrame (s : State) : State := (s.withLen 0).withSt .idle

end Sys2Proof.Machine
end

