-- ==== Sys2Proof/Machine/Assembler.lean ====
section
/-! DEFINITION. The Frame Assembler: ARM, the four cases of RX, POLL and ABORT (41_assembler.md). -/

namespace Sys2Proof.Machine

/-- `ARM` (R150). -/
def execArm (s : State) : Result :=
  .next (if s.cfg.fcEn ∧ s.st ≠ .ready then s.withRts .high else s)

/-- Start of a frame (R152): the marker is the first stored byte. -/
def startFrame (s : State) : Result :=
  andThen (memWrite 0 startMarker s) fun s' => .next ((s'.withLen 1).withSt .assembling)

/-- `RX.idle_other` (R151): the byte is discarded. -/
def execRxIdleOther (b : Byte) (s : State) : Result :=
  if s.st = .idle ∧ b ≠ startMarker then .next s else .refused .rxCaseNotEnabled

/-- `RX.idle_start` (R152). -/
def execRxIdleStart (s : State) : Result :=
  if s.st = .idle then startFrame s else .refused .rxCaseNotEnabled

/-- The completion test of R153, on the state after the append: the byte six positions behind the newest is the end
marker. -/
def completes (s : State) : Bool := decide (7 ≤ s.len) && s.buf.read (s.len - 7) == endMarker

/-- Ready is reached: flow control is released in the same step (R153). -/
def becomeReady (s : State) : State :=
  let s' := s.withSt .ready
  if s.cfg.fcEn then s'.withRts .hiZ else s'

/-- `RX.append` (R153). -/
def execRxAppend (b : Byte) (s : State) : Result :=
  if s.st = .assembling ∧ s.len < s.cfg.cap then
    andThen (memWrite s.len b s) fun s' =>
      let s'' := s'.withLen (s.len + 1)
      .next (if completes s'' then becomeReady s'' else s'')
  else .refused .rxCaseNotEnabled

/-- `RX.overflow` (R154): the framing error, then the byte is given to the Idle rules. -/
def execRxOverflow (b : Byte) (s : State) : Result :=
  if s.st = .assembling ∧ s.cfg.cap ≤ s.len then
    if b = startMarker then startFrame (raise .framingOvf s) else .next (raise .framingOvf s)
  else .refused .rxCaseNotEnabled

/-- `RX(b)`: the case whose condition holds (R151 to R154); none is enabled in Ready (R155). -/
def receive (b : Byte) (s : State) : Result :=
  match s.st with
  | .idle => if b = startMarker then execRxIdleStart s else execRxIdleOther b s
  | .assembling => if s.len < s.cfg.cap then execRxAppend b s else execRxOverflow b s
  | .ready => .refused .rxCaseNotEnabled

/-- The loop of POLL (R158): bytes are read while the frame is not Ready; the rest stays in the byte source. -/
def pollLoop : List Byte → State → Result
  | [], s => .next (s.withQ [])
  | b :: q, s => if s.st = .ready then .next (s.withQ (b :: q)) else andThen (receive b s) (pollLoop q)

/-- `POLL` on the bytes currently available in the byte source (R158). -/
def execPoll (s : State) : Result := andThen (execArm s) (pollLoop s.q)

/-- `ABORT` (R157). -/
def execAbort (s : State) : Result := .next (if s.st = .assembling then raise .abort s else s)

end Sys2Proof.Machine
end

