-- ==== Sys2Proof/Machine/Operands.lean ====
section
/-! DEFINITION. The operand formats (30_encoding.md R106 to R114) and the extraction primitives (42_parser.md R182 to
R187), and how the frame is cut into header, lines, body and trailer (30_encoding.md R101, 42_parser.md R172 to R175).

The spec names a place in a line by its index; here it is named by the bytes of the line from that index on, so that
nothing outside the line `[s, e)` can be read (20_memory.md R74). A primitive answers `none` where the spec says
`skip`. -/

namespace Sys2Proof.Machine

/-! ## Searches (00_scope.md R11) -/

/-- `find(c, a, b)`: the bytes after the first `c`, or `none`. -/
def after (c : Byte) : List Byte → Option (List Byte)
  | [] => none
  | b :: bs => if b = c then some bs else after c bs

/-- `rfind(c, a, b)`: the bytes after the last `c`, or `none`. -/
def afterLast (c : Byte) : List Byte → Option (List Byte)
  | [] => none
  | b :: bs =>
    match afterLast c bs with
    | some r => some r
    | none => if b = c then some bs else none

/-- The bytes before the first `c`. -/
def before (c : Byte) (bs : List Byte) : List Byte := bs.takeWhile (· != c)

/-- The bytes from the first `c` on. -/
def upFrom (c : Byte) (bs : List Byte) : List Byte := bs.dropWhile (· != c)

/-- The digits of `run(a, b)`. -/
def digits (bs : List Byte) : List Byte := bs.takeWhile isDigit

/-- What stands after `run(a, b)`. -/
def pastDigits (bs : List Byte) : List Byte := bs.dropWhile isDigit

/-- `dec(ds)`, most significant digit first, unbounded (20_memory.md R76). -/
def dec (ds : List Byte) : Nat := ds.foldl (fun a d => 10 * a + (d.toNat - 0x30)) 0

/-- A numeral of `2^32` or more is a field-extraction error (42_parser.md R187). -/
def word32 (v : Nat) : Option Word32 := if v < 2 ^ 32 then some (BitVec.ofNat 32 v) else none

/-! ## Extraction primitives. `g` is the line after the tag, `p` the line after a `'('`. -/

/-- `X_INT` (42_parser.md R182). -/
def xInt (g : List Byte) : Option Word32 :=
  match after openParen g with
  | none => none
  | some p => if digits p = [] then none else word32 (dec (digits p))

/-- `X_FIXAT` (42_parser.md R183). -/
def xFixAt (w f : Nat) (p : List Byte) : Option Word32 :=
  if f = 0 then
    if w ≤ p.length ∧ (p.take w).all isDigit then word32 (dec (p.take w)) else none
  else if w + 1 + f ≤ p.length ∧ p[w]? = some fullStop ∧ (p.take w).all isDigit
      ∧ ((p.drop (w + 1)).take f).all isDigit then
    word32 (dec (p.take w ++ (p.drop (w + 1)).take f))
  else none

/-- `X_FIX` (42_parser.md R183). -/
def xFix (w f : Nat) (g : List Byte) : Option Word32 :=
  match after openParen g with
  | none => none
  | some p => xFixAt w f p

/-- The number of a line under its row's rule. -/
def xNum : NumRule → List Byte → Option Word32
  | .int, g => xInt g
  | .fix w f, g => xFix w f g

/-- `X_TSAT` (42_parser.md R184). -/
def xTsAt (p : List Byte) : Option (List Byte) :=
  if stampLength ≤ p.length then some (p.take stampLength) else none

/-- `X_TS` (42_parser.md R184). -/
def xTs (g : List Byte) : Option (List Byte) :=
  match after openParen g with
  | none => none
  | some p => xTsAt p

/-- `X_STR` (42_parser.md R185): up to two bytes before the line's end, truncated to `m`. -/
def xStr (m : Nat) (g : List Byte) : Option (List Byte) :=
  match after openParen g with
  | none => none
  | some p => if 2 ≤ p.length then some (truncate m (p.take (p.length - 2))) else none

/-- The fraction digits of a `decimal`: those after a `'.'` that directly follows the whole part (30_encoding.md
R114). -/
def fractionDigits (rest : List Byte) : List Byte :=
  match rest with
  | [] => []
  | b :: r => if b = fullStop then digits r else []

/-- `X_DEC` (42_parser.md R186): mantissa and number of fraction digits. -/
def xDec (p : List Byte) : Option (Word32 × BitVec 4) :=
  let d1 := digits p
  let d2 := fractionDigits (pastDigits p)
  if d1 = [] then none
  else if d2.length ≤ 15 then (word32 (dec (d1 ++ d2))).map fun m => (m, BitVec.ofNat 4 d2.length)
  else none

/-- One entry of the power-failure log and what follows its duration's `'('` (44_fields_log_subdev.md R240). -/
def xEntry (cur : List Byte) : Option (LogEntry × List Byte) :=
  match after openParen cur with
  | none => none
  | some a =>
    match xTsAt a, after openParen a with
    | some ts, some b => (xDec b).map fun (m, f) => (⟨ts, m, f⟩, b)
    | _, _ => none

/-- The entries of the log, at most `k`: the loop stops at the first that fails (44_fields_log_subdev.md R240). -/
def xEntries : Nat → List Byte → List LogEntry
  | 0, _ => []
  | k + 1, cur =>
    match xEntry cur with
    | none => []
    | some (e, cur') => e :: xEntries k cur'

/-- Skip `k` groups (44_fields_log_subdev.md R240, `PFLOG_SKIP`). -/
def skipGroups : Nat → List Byte → Option (List Byte)
  | 0, cur => some cur
  | k + 1, cur =>
    match after openParen cur with
    | none => none
    | some cur' => skipGroups k cur'

/-- `PFLOG` (30_encoding.md R111, 44_fields_log_subdev.md R240): the entries to store. -/
def xPflog (skip npf : Nat) (g : List Byte) : Option (List LogEntry) :=
  match after openParen g with
  | none => none
  | some p =>
    if digits p = [] then none
    else (skipGroups skip p).map fun cur => xEntries (min (dec (digits p)) npf) cur

/-- The bytes between a `'*'` and the next `')'` (30_encoding.md R112). -/
def xUnit (p : List Byte) : Option (List Byte) :=
  match after asterisk p with
  | none => none
  | some u => if closeParen ∈ u then some (before closeParen u) else none

/-- `RDG(W,F)` (30_encoding.md R112, 44_fields_log_subdev.md R244): timestamp, value, unit. -/
def xReading (w f unitMax : Nat) (g : List Byte) : Option (List Byte × Word32 × List Byte) :=
  match after openParen g with
  | none => none
  | some a =>
    match xTsAt a, after openParen a with
    | some ts, some b =>
      match xFixAt w f b, xUnit b with
      | some v, some u => some (ts, v, truncate unitMax u)
      | _, _ => none
    | _, _ => none

/-! ## The frame -/

/-- The lines of a frame (30_encoding.md R101): cut at each line separator; what follows the last separator is a line
when it is not empty. -/
def splitLines : List Byte → List (List Byte)
  | [] => []
  | b :: bs =>
    if b = lineFeed then [] :: splitLines bs
    else
      match splitLines bs with
      | [] => [[b]]
      | l :: ls => (b :: l) :: ls

/-- `BUF[0 .. END)`: the frame before its end marker (42_parser.md R172). -/
def bodyOf (frame : List Byte) : List Byte := before endMarker frame

/-- `BUF[END .. LEN)`: the end marker, the checksum characters and the terminator (20_memory.md R78). -/
def trailerOf (frame : List Byte) : List Byte := upFrom endMarker frame

/-- `BUF[0 .. END]`, the bytes the checksum covers (40_crc.md R144). -/
def checkedRange (frame : List Byte) : List Byte := bodyOf frame ++ (trailerOf frame).take 1

/-- One trailing `0x0D` removed (42_parser.md R174). -/
def stripReturn (t : List Byte) : List Byte :=
  if t.getLast? = some carriageReturn then t.dropLast else t

/-- The header text of line 0, `g` its bytes after the start marker (42_parser.md R174): it never runs into the end
marker. -/
def headerText (hdrMax : Nat) (g : List Byte) : List Byte :=
  truncate hdrMax (stripReturn (before endMarker g))

/-- The sub-device count (42_parser.md R175), from the frame before its end marker. -/
def deviceCount (nsub : Nat) (body : List Byte) : Nat :=
  match afterLast hyphen body with
  | none => 0
  | some g => min (dec (digits g)) nsub

end Sys2Proof.Machine
end

