-- ==== Sys2Proof/Machine/Flags.lean ====
section
/-! DEFINITION. The flag computations of P1CORE: `READY`, `STATUS`, `ERR` as bits, the transmitted checksum, and the
device type. -/

namespace Sys2Proof.Machine

/-- The encoding of `ST` (10_state.md R21). -/
def AsmState.code : AsmState → BitVec 2
  | .idle => 0#2
  | .assembling => 1#2
  | .ready => 2#2

/-- `READY = (ST == Ready)` (10_state.md R24). -/
def State.ready (s : State) : Bool := s.st == .ready

/-- A Boolean as one bit. -/
def bit (b : Bool) : BitVec 1 := BitVec.ofBool b

/-- `STATUS` (10_state.md R26): `[1:0] = ST`, `[2] = READY`, `[3] = RTS is High`, `[4] = FC_EN`, `[7:5] = 0`. -/
def State.statusWord (s : State) : BitVec 8 :=
  0#3 ++ bit s.cfg.fcEn ++ bit (s.rts == .high) ++ bit s.ready ++ s.st.code

/-- `ERR` as three bits: bit 0 `OVF`, bit 1 `SIG`, bit 2 `ABT` (10_state.md R25, 45_host.md R266). -/
def Err.bits (e : Err) : BitVec 3 := bit e.abt ++ bit e.sig ++ bit e.ovf

/-- The value of an uppercase hexadecimal digit (30_encoding.md R113, 20_memory.md R76). -/
def hexDigit (b : Byte) : Option Nat :=
  if isDigit b then some (b.toNat - 0x30)
  else if 0x41 ≤ b.toNat ∧ b.toNat ≤ 0x46 then some (b.toNat - 0x41 + 10)
  else none

/-- `HEX4`, most significant digit first; `none` when one of the four is malformed (30_encoding.md R113). -/
def hex4 (c1 c2 c3 c4 : Byte) : Option Word16 :=
  match hexDigit c1, hexDigit c2, hexDigit c3, hexDigit c4 with
  | some h1, some h2, some h3, some h4 => some (BitVec.ofNat 16 (h1 * 4096 + h2 * 256 + h3 * 16 + h4))
  | _, _, _, _ => none

/-- `devtype` (10_state.md R49). -/
def deviceType (c : Config) (code : Word32) : DeviceType :=
  if code = c.devGas then .gas
  else if code = c.devThermal then .thermal
  else if code = c.devWater then .water
  else .unknown code

end Sys2Proof.Machine
end

