-- ==== Sys2Proof/Machine/HostOps.lean ====
section
/-! DEFINITION. The remaining host operations: RST, ERRCLR and the reads (45_host.md). A read changes nothing of the
core; its value goes to `out` (notes/assumptions/7.md). -/

namespace Sys2Proof.Machine

/-- `RST` (R260): everything but the configuration and the environment; the storage of `BUF` is not written, `LEN` is
0 (10_state.md R53; notes/assumptions/8.md). -/
def execRst (s : State) : Result :=
  .next (((((s.withSt .idle).withLen 0).withRts .hiZ).withErr ⟨false, false, false⟩).withRecord (defaultRecord s.cfg))

/-- `ERRCLR` (R264). -/
def execErrclr (s : State) : Result := .next (s.withErr ⟨false, false, false⟩)

/-- `RD_STATUS` (R265). -/
def execRdStatus (s : State) : Result := .next (s.withOut (.status s.statusWord))

/-- `RD_ERR` (R266). -/
def execRdErr (s : State) : Result := .next (s.withOut (.err s.err.bits))

/-- `RD_LEN` (R267). -/
def execRdLen (s : State) : Result := .next (s.withOut (.number s.len))

/-- How many indices the index port of RD_BUF carries: `2 ^ ceil(log2(CAP))` (R268). -/
def indexPortSize (cap : Nat) : Nat := if cap ≤ 1 then 1 else 2 ^ (Nat.log2 (cap - 1) + 1)

/-- What the host sees at index `i` of the buffer (R268): `0x00` at and above `LEN`. -/
def State.bufByte (s : State) (i : Nat) : Byte := if i < s.len then s.buf.read i else 0x00#8

/-- `RD_BUF(i)` (R268; notes/assumptions/11.md): an unused code of the index port reads `0x00`. -/
def execRdBuf (i : Nat) (s : State) : Result :=
  if i < s.cfg.cap then .next (s.withOut (.byte (s.bufByte i)))
  else if i < indexPortSize s.cfg.cap then .next (s.withOut (.byte 0x00#8))
  else .refused (.indexOutsidePort i)

/-- The value of a field of the record; an array element that does not exist has none. -/
def Record.field (r : Record) : RecField → Option ReadValue
  | .num d => some (.word (r.getNum d))
  | .hdr => some (.text r.hdr)
  | .ts => some (.text r.ts)
  | .equipId => some (.text r.equipId)
  | .msg => some (.text r.msg)
  | .devN => some (.number r.devN)
  | .pflogN => some (.number r.pflogN)
  | .crcTx => some (.half r.crcTx)
  | .crcCalc => some (.half r.crcCalc)
  | .crcValid => some (.flag r.crcValid)
  | .pflogTs i => r.pflog[i]?.map fun e => .text e.ts
  | .pflogMant i => r.pflog[i]?.map fun e => .word e.mant
  | .pflogFrac i => r.pflog[i]?.map fun e => .nibble e.frac
  | .devTypeCode k => r.dev[k]?.map fun d => .word d.typeCode
  | .devEquipId k => r.dev[k]?.map fun d => .text d.equipId
  | .devRdTs k => r.dev[k]?.map fun d => .text d.rdTs
  | .devRdVal k => r.dev[k]?.map fun d => .word d.rdVal
  | .devRdUnit k => r.dev[k]?.map fun d => .text d.rdUnit

/-- `RD_REC(f)` (R270). -/
def execRdRec (f : RecField) (s : State) : Result :=
  match s.record.field f with
  | some v => .next (s.withOut v)
  | none => .refused (.noSuchField f)

/-- The value of a parameter (00_scope.md R7). -/
def Config.field (c : Config) : CfgField → ReadValue
  | .cap => .number c.cap
  | .fcEn => .flag c.fcEn
  | .nsub => .number c.nsub
  | .npf => .number c.npf
  | .pflogSkip => .number c.pflogSkip
  | .hdrMax => .number c.hdrMax
  | .idMax => .number c.idMax
  | .msgMax => .number c.msgMax
  | .unitMax => .number c.unitMax
  | .tagtab => .table c.tagtab
  | .devGas => .word c.devGas
  | .devThermal => .word c.devThermal
  | .devWater => .word c.devWater

/-- `RD_CFG(p)` (R271). -/
def execRdCfg (p : CfgField) (s : State) : Result := .next (s.withOut (Config.field s.cfg p))

end Sys2Proof.Machine
end

