-- ==== Sys2Proof/Machine/Checksum.lean ====
section
/-! DEFINITION. The Checksum Engine (40_crc.md). -/

namespace Sys2Proof.Machine

/-- The reversed polynomial (00_scope.md R8). -/
abbrev crcPolynomial : Word16 := 0xA001#16

/-- One of the eight iterations of 40_crc.md R140: shift right, and exclusive-or with the polynomial when the bit
shifted out is 1. -/
def crcShift (c : Word16) : Word16 :=
  if c.getLsbD 0 then (c >>> 1) ^^^ crcPolynomial else c >>> 1

/-- `crc_upd(c, b)` (40_crc.md R140). -/
def crcUpd (c : Word16) (b : Byte) : Word16 :=
  crcShift (crcShift (crcShift (crcShift (crcShift (crcShift (crcShift (crcShift (c ^^^ b.setWidth 16))))))))

/-- The running value after more bytes (40_crc.md R143 (b)). -/
def crcFrom (c : Word16) (bs : List Byte) : Word16 := bs.foldl crcUpd c

/-- `crc16(bs)` (40_crc.md R141). -/
def crc16 (bs : List Byte) : Word16 := crcFrom 0#16 bs

/-- `CRC16`: clear `CRCREG`, update it once per byte (40_crc.md R141, R142). -/
def execCrc16 (bs : List Byte) (s : State) : Result := .next (s.withCrcReg (crc16 bs))

end Sys2Proof.Machine
end

