-- ==== Sys2Proof/Machine/Lines.lean ====
section
/-! DEFINITION. The structural line formats: HEADER, ENDLINE and UNRECOGNISED (30_encoding.md R103). -/

namespace Sys2Proof.Machine

/-- `HEADER`, step 1 of the parse (42_parser.md R174). Executed alone it does not ask for `ST = Ready`
(notes/assumptions/26.md). -/
def execHeader (g : List Byte) (s : State) : Result :=
  .next (s.withRecord (s.record.withHdr (headerText s.cfg.hdrMax g)))

/-- The comparison of 42_parser.md R194; a difference is the event ChecksumMismatch (60_exceptions.md R285). -/
def compareChecksum (tx : Word16) (s : State) : State :=
  let s' := s.withRecord (s.record.withCrcTx tx)
  if s.record.crcCalc = tx then s'.withRecord (s'.record.withCrcValid true) else raise .checksumMismatch s'

/-- Step 5 of the parse on a frame with these checksum characters (42_parser.md R190 to R194). -/
def checkTrailer (frame : List Byte) (c1 c2 c3 c4 : Byte) (s : State) : State :=
  let crc := crc16 (checkedRange frame)
  let s' := (s.withCrcReg crc).withRecord (s.record.withCrcCalc crc)
  match hex4 c1 c2 c3 c4 with
  | some tx => compareChecksum tx s'
  | none => raise .framingSig s'

/-- `ENDLINE` (42_parser.md R190 to R194): the checksum of the frame against the four characters. The two terminator
characters are never examined (R193). The model's choice (DESIGN CHOICE, notes/assumptions/26.md): executed alone it
reads the buffer whatever `ST` is, where 20_memory.md R85 lets only PARSE, in Ready, touch it. -/
def execEndline (c1 c2 c3 c4 _t1 _t2 : Byte) (s : State) : Result :=
  withFrame s fun frame => .next (checkTrailer frame c1 c2 c3 c4 s)

/-- `UNRECOGNISED` (42_parser.md R179): "nothing happens". -/
def execUnrecognised (_line : List Byte) (s : State) : Result := .next (raise .unrecognisedTag s)

end Sys2Proof.Machine
end

