-- ==== Sys2Proof/Machine/LogSubdev.lean ====
section
/-! DEFINITION. The power-failure log row T13 and the sub-device rows T33 to T35 (44_fields_log_subdev.md). -/

namespace Sys2Proof.Machine

/-- `T13.PFLOG` (R240): the entries found overwrite the first slots, `PFLOG_N` is their number. -/
def execT13Pflog (g : List Byte) (s : State) : Result :=
  .next (commit (xPflog s.cfg.pflogSkip s.cfg.npf g) (fun es rec => rec.storeLog es) s)

/-- `T33.DEV[N-1].TYPE_CODE` (R242). -/
def execT33DevTypeCode (r : NumRule) (n : Nat) (g : List Byte) (s : State) : Result :=
  .next (route n (fun k => commit (xNum r g) fun v rec =>
    rec.modifyDev k fun d => { d with typeCode := v }) s)

/-- `T34.DEV[N-1].EQUIP_ID` (R243). -/
def execT34DevEquipId (n : Nat) (g : List Byte) (s : State) : Result :=
  .next (route n (fun k => commit (xStr s.cfg.idMax g) fun t rec =>
    rec.modifyDev k fun d => { d with equipId := t }) s)

/-- `T35.DEV[N-1].RD_TS` (R244): the three fields of the reading together, or none. -/
def execT35DevReading (w f n : Nat) (g : List Byte) (s : State) : Result :=
  .next (route n (fun k => commit (xReading w f s.cfg.unitMax g) fun (ts, v, u) rec =>
    rec.modifyDev k fun d => { d with rdTs := ts, rdVal := v, rdUnit := u }) s)

end Sys2Proof.Machine
end

