-- ==== Sys2Proof/Machine/MainFields.lean ====
section
/-! DEFINITION. The main-meter tag rows T01 to T12 and T14 to T32 (43_fields_main.md). `g` is the line after the tag;
each row writes its destination, or skips and writes nothing. -/

namespace Sys2Proof.Machine

/-- A row that extracts a number and writes one numeric field (42_parser.md R182, R183, R187). -/
def storeNumber (d : NumDest) (r : NumRule) (g : List Byte) (s : State) : State :=
  commit (xNum r g) (fun v rec => rec.setNum d v) s

/-- `T01.VERSION` (R200): `REC.VERSION`. -/
def execT01Version (r : NumRule) (g : List Byte) (s : State) : Result := .next (storeNumber .version r g s)

/-- `T02.TS` (R201): `REC.TS`. -/
def execT02Ts (g : List Byte) (s : State) : Result :=
  .next (commit (xTs g) (fun t rec => rec.withTs t) s)

/-- `T03.EQUIP_ID` (R202): `REC.EQUIP_ID`. -/
def execT03EquipId (g : List Byte) (s : State) : Result :=
  .next (commit (xStr s.cfg.idMax g) (fun t rec => rec.withEquipId t) s)

/-- `T04.E_DEL_T1` (R203): `REC.E_DEL_T1`. -/
def execT04EDelT1 (r : NumRule) (g : List Byte) (s : State) : Result := .next (storeNumber .eDelT1 r g s)

/-- `T05.E_DEL_T2` (R204): `REC.E_DEL_T2`. -/
def execT05EDelT2 (r : NumRule) (g : List Byte) (s : State) : Result := .next (storeNumber .eDelT2 r g s)

/-- `T06.E_PROD_T1` (R205): `REC.E_PROD_T1`. -/
def execT06EProdT1 (r : NumRule) (g : List Byte) (s : State) : Result := .next (storeNumber .eProdT1 r g s)

/-- `T07.E_PROD_T2` (R206): `REC.E_PROD_T2`. -/
def execT07EProdT2 (r : NumRule) (g : List Byte) (s : State) : Result := .next (storeNumber .eProdT2 r g s)

/-- `T08.TARIFF` (R207): `REC.TARIFF`. -/
def execT08Tariff (r : NumRule) (g : List Byte) (s : State) : Result := .next (storeNumber .tariff r g s)

/-- `T09.P_DEL` (R208): `REC.P_DEL`. -/
def execT09PDel (r : NumRule) (g : List Byte) (s : State) : Result := .next (storeNumber .pDel r g s)

/-- `T10.P_PROD` (R209): `REC.P_PROD`. -/
def execT10PProd (r : NumRule) (g : List Byte) (s : State) : Result := .next (storeNumber .pProd r g s)

/-- `T11.PF_SHORT` (R210): `REC.PF_SHORT`. -/
def execT11PfShort (r : NumRule) (g : List Byte) (s : State) : Result := .next (storeNumber .pfShort r g s)

/-- `T12.PF_LONG` (R211): `REC.PF_LONG`. -/
def execT12PfLong (r : NumRule) (g : List Byte) (s : State) : Result := .next (storeNumber .pfLong r g s)

/-- `T14.SAG_L1` (R213): `REC.SAG_L1`. -/
def execT14SagL1 (r : NumRule) (g : List Byte) (s : State) : Result := .next (storeNumber .sagL1 r g s)

/-- `T15.SAG_L2` (R214): `REC.SAG_L2`. -/
def execT15SagL2 (r : NumRule) (g : List Byte) (s : State) : Result := .next (storeNumber .sagL2 r g s)

/-- `T16.SAG_L3` (R215): `REC.SAG_L3`. -/
def execT16SagL3 (r : NumRule) (g : List Byte) (s : State) : Result := .next (storeNumber .sagL3 r g s)

/-- `T17.SWELL_L1` (R216): `REC.SWELL_L1`. -/
def execT17SwellL1 (r : NumRule) (g : List Byte) (s : State) : Result := .next (storeNumber .swellL1 r g s)

/-- `T18.SWELL_L2` (R217): `REC.SWELL_L2`. -/
def execT18SwellL2 (r : NumRule) (g : List Byte) (s : State) : Result := .next (storeNumber .swellL2 r g s)

/-- `T19.SWELL_L3` (R218): `REC.SWELL_L3`. -/
def execT19SwellL3 (r : NumRule) (g : List Byte) (s : State) : Result := .next (storeNumber .swellL3 r g s)

/-- `T20.MSG` (R219): `REC.MSG`. -/
def execT20Msg (g : List Byte) (s : State) : Result :=
  .next (commit (xStr s.cfg.msgMax g) (fun t rec => rec.withMsg t) s)

/-- `T21.V_L1` (R220): `REC.V_L1`. -/
def execT21VL1 (r : NumRule) (g : List Byte) (s : State) : Result := .next (storeNumber .vL1 r g s)

/-- `T22.V_L2` (R221): `REC.V_L2`. -/
def execT22VL2 (r : NumRule) (g : List Byte) (s : State) : Result := .next (storeNumber .vL2 r g s)

/-- `T23.V_L3` (R222): `REC.V_L3`. -/
def execT23VL3 (r : NumRule) (g : List Byte) (s : State) : Result := .next (storeNumber .vL3 r g s)

/-- `T24.I_L1` (R223): `REC.I_L1`. -/
def execT24IL1 (r : NumRule) (g : List Byte) (s : State) : Result := .next (storeNumber .iL1 r g s)

/-- `T25.I_L2` (R224): `REC.I_L2`. -/
def execT25IL2 (r : NumRule) (g : List Byte) (s : State) : Result := .next (storeNumber .iL2 r g s)

/-- `T26.I_L3` (R225): `REC.I_L3`. -/
def execT26IL3 (r : NumRule) (g : List Byte) (s : State) : Result := .next (storeNumber .iL3 r g s)

/-- `T27.P_DEL_L1` (R226): `REC.P_DEL_L1`. -/
def execT27PDelL1 (r : NumRule) (g : List Byte) (s : State) : Result := .next (storeNumber .pDelL1 r g s)

/-- `T28.P_DEL_L2` (R227): `REC.P_DEL_L2`. -/
def execT28PDelL2 (r : NumRule) (g : List Byte) (s : State) : Result := .next (storeNumber .pDelL2 r g s)

/-- `T29.P_DEL_L3` (R228): `REC.P_DEL_L3`. -/
def execT29PDelL3 (r : NumRule) (g : List Byte) (s : State) : Result := .next (storeNumber .pDelL3 r g s)

/-- `T30.P_PROD_L1` (R229): `REC.P_PROD_L1`. -/
def execT30PProdL1 (r : NumRule) (g : List Byte) (s : State) : Result := .next (storeNumber .pProdL1 r g s)

/-- `T31.P_PROD_L2` (R230): `REC.P_PROD_L2`. -/
def execT31PProdL2 (r : NumRule) (g : List Byte) (s : State) : Result := .next (storeNumber .pProdL2 r g s)

/-- `T32.P_PROD_L3` (R231): `REC.P_PROD_L3`. -/
def execT32PProdL3 (r : NumRule) (g : List Byte) (s : State) : Result := .next (storeNumber .pProdL3 r g s)

end Sys2Proof.Machine
end

