-- ==== Sys2Proof/Machine/Parser.lean ====
section
/-! DEFINITION. The Field Parser: PARSE (42_parser.md R170, 45_host.md R262, R263). -/

namespace Sys2Proof.Machine

/-- What a line of a frame does: the meaning of its instruction. An instruction that is no line does nothing here; the
line decoder yields none (decodeLine, `decodeLine_isLine` in Laws/Exec.lean). -/
def runLine (i : Instr) (s : State) : Result :=
  match i with
  | .t01Version r g => execT01Version r g s
  | .t02Ts g => execT02Ts g s
  | .t03EquipId g => execT03EquipId g s
  | .t04EDelT1 r g => execT04EDelT1 r g s
  | .t05EDelT2 r g => execT05EDelT2 r g s
  | .t06EProdT1 r g => execT06EProdT1 r g s
  | .t07EProdT2 r g => execT07EProdT2 r g s
  | .t08Tariff r g => execT08Tariff r g s
  | .t09PDel r g => execT09PDel r g s
  | .t10PProd r g => execT10PProd r g s
  | .t11PfShort r g => execT11PfShort r g s
  | .t12PfLong r g => execT12PfLong r g s
  | .t13Pflog g => execT13Pflog g s
  | .t14SagL1 r g => execT14SagL1 r g s
  | .t15SagL2 r g => execT15SagL2 r g s
  | .t16SagL3 r g => execT16SagL3 r g s
  | .t17SwellL1 r g => execT17SwellL1 r g s
  | .t18SwellL2 r g => execT18SwellL2 r g s
  | .t19SwellL3 r g => execT19SwellL3 r g s
  | .t20Msg g => execT20Msg g s
  | .t21VL1 r g => execT21VL1 r g s
  | .t22VL2 r g => execT22VL2 r g s
  | .t23VL3 r g => execT23VL3 r g s
  | .t24IL1 r g => execT24IL1 r g s
  | .t25IL2 r g => execT25IL2 r g s
  | .t26IL3 r g => execT26IL3 r g s
  | .t27PDelL1 r g => execT27PDelL1 r g s
  | .t28PDelL2 r g => execT28PDelL2 r g s
  | .t29PDelL3 r g => execT29PDelL3 r g s
  | .t30PProdL1 r g => execT30PProdL1 r g s
  | .t31PProdL2 r g => execT31PProdL2 r g s
  | .t32PProdL3 r g => execT32PProdL3 r g s
  | .t33DevTypeCode r n g => execT33DevTypeCode r n g s
  | .t34DevEquipId n g => execT34DevEquipId n g s
  | .t35DevReading w f n g => execT35DevReading w f n g s
  | .header g => execHeader g s
  | .endline c1 c2 c3 c4 t1 t2 => execEndline c1 c2 c3 c4 t1 t2 s
  | .unrecognised line => execUnrecognised line s
  | .poll | .parse | .abort | .errclr | .rst | .rdStatus | .rdErr | .rdLen | .rdBuf _ | .rdRec _ | .rdCfg _ => .next s
  | .arm | .rxIdleOther _ | .rxIdleStart | .rxAppend _ | .rxOverflow _ | .crc16 _ => .next s

/-- The lines of a frame as instructions: line 0 is the header, every other line is dispatched (42_parser.md R177,
R178; notes/assumptions/15.md). -/
def frameProgram (table : List TagRow) (frame : List Byte) : List Instr :=
  match splitLines frame with
  | [] => []
  | l :: ls => .header (l.drop 1) :: ls.map (decodeLine table)

/-- The line walk: the lines in frame order (42_parser.md R177, R188). -/
def walk : List Instr → State → Result
  | [], s => .next s
  | i :: is, s => andThen (runLine i s) (walk is)

/-- Before the walk: the record at its defaults, and the sub-device count (42_parser.md R171, R175). -/
def beginParse (frame : List Byte) (s : State) : State :=
  s.withRecord ((defaultRecord s.cfg).withDevN (deviceCount s.cfg.nsub (bodyOf frame)))

/-- Byte `k` of the trailer (20_memory.md R78; notes/assumptions/14.md). -/
def trailerByte (frame : List Byte) (k : Nat) : Byte := (trailerOf frame).getD k 0x00#8

/-- Step 5 on the frame's own trailer (42_parser.md R190). -/
def endline (frame : List Byte) (s : State) : Result :=
  execEndline (trailerByte frame 1) (trailerByte frame 2) (trailerByte frame 3) (trailerByte frame 4)
    (trailerByte frame 5) (trailerByte frame 6) s

/-- The six steps of the parse (42_parser.md R170). -/
def parseFrame (frame : List Byte) (s : State) : Result :=
  andThen (walk (frameProgram s.cfg.tagtab frame) (beginParse frame s)) fun s' =>
  andThen (endline frame s') fun s'' => .next (clearFrame s'')

/-- `PARSE`: ignored unless Ready (45_host.md R262, R263; notes/assumptions/10.md). -/
def execParse (s : State) : Result :=
  if s.st = .ready then withFrame s fun frame => parseFrame frame s else .next s

end Sys2Proof.Machine
end

