-- ==== Sys2Proof/Machine/Dispatch.lean ====
section
/-! DEFINITION. One arm per instruction, in the order of spec/opcode_table.json. -/

namespace Sys2Proof.Machine

def exec (i : Instr) (s : State) : Host.Outcome State Fault Refusal :=
  match i with
  | .t01Version r g => Sys2Proof.Machine.execT01Version r g s
  | .t02Ts g => Sys2Proof.Machine.execT02Ts g s
  | .t03EquipId g => Sys2Proof.Machine.execT03EquipId g s
  | .t04EDelT1 r g => Sys2Proof.Machine.execT04EDelT1 r g s
  | .t05EDelT2 r g => Sys2Proof.Machine.execT05EDelT2 r g s
  | .t06EProdT1 r g => Sys2Proof.Machine.execT06EProdT1 r g s
  | .t07EProdT2 r g => Sys2Proof.Machine.execT07EProdT2 r g s
  | .t08Tariff r g => Sys2Proof.Machine.execT08Tariff r g s
  | .t09PDel r g => Sys2Proof.Machine.execT09PDel r g s
  | .t10PProd r g => Sys2Proof.Machine.execT10PProd r g s
  | .t11PfShort r g => Sys2Proof.Machine.execT11PfShort r g s
  | .t12PfLong r g => Sys2Proof.Machine.execT12PfLong r g s
  | .t13Pflog g => Sys2Proof.Machine.execT13Pflog g s
  | .t14SagL1 r g => Sys2Proof.Machine.execT14SagL1 r g s
  | .t15SagL2 r g => Sys2Proof.Machine.execT15SagL2 r g s
  | .t16SagL3 r g => Sys2Proof.Machine.execT16SagL3 r g s
  | .t17SwellL1 r g => Sys2Proof.Machine.execT17SwellL1 r g s
  | .t18SwellL2 r g => Sys2Proof.Machine.execT18SwellL2 r g s
  | .t19SwellL3 r g => Sys2Proof.Machine.execT19SwellL3 r g s
  | .t20Msg g => Sys2Proof.Machine.execT20Msg g s
  | .t21VL1 r g => Sys2Proof.Machine.execT21VL1 r g s
  | .t22VL2 r g => Sys2Proof.Machine.execT22VL2 r g s
  | .t23VL3 r g => Sys2Proof.Machine.execT23VL3 r g s
  | .t24IL1 r g => Sys2Proof.Machine.execT24IL1 r g s
  | .t25IL2 r g => Sys2Proof.Machine.execT25IL2 r g s
  | .t26IL3 r g => Sys2Proof.Machine.execT26IL3 r g s
  | .t27PDelL1 r g => Sys2Proof.Machine.execT27PDelL1 r g s
  | .t28PDelL2 r g => Sys2Proof.Machine.execT28PDelL2 r g s
  | .t29PDelL3 r g => Sys2Proof.Machine.execT29PDelL3 r g s
  | .t30PProdL1 r g => Sys2Proof.Machine.execT30PProdL1 r g s
  | .t31PProdL2 r g => Sys2Proof.Machine.execT31PProdL2 r g s
  | .t32PProdL3 r g => Sys2Proof.Machine.execT32PProdL3 r g s
  | .t33DevTypeCode r n g => Sys2Proof.Machine.execT33DevTypeCode r n g s
  | .t34DevEquipId n g => Sys2Proof.Machine.execT34DevEquipId n g s
  | .t35DevReading w f n g => Sys2Proof.Machine.execT35DevReading w f n g s
  | .header g => Sys2Proof.Machine.execHeader g s
  | .endline c1 c2 c3 c4 t1 t2 => Sys2Proof.Machine.execEndline c1 c2 c3 c4 t1 t2 s
  | .unrecognised line => Sys2Proof.Machine.execUnrecognised line s
  | .poll => Sys2Proof.Machine.execPoll s
  | .parse => Sys2Proof.Machine.execParse s
  | .abort => Sys2Proof.Machine.execAbort s
  | .errclr => Sys2Proof.Machine.execErrclr s
  | .rst => Sys2Proof.Machine.execRst s
  | .rdStatus => Sys2Proof.Machine.execRdStatus s
  | .rdErr => Sys2Proof.Machine.execRdErr s
  | .rdLen => Sys2Proof.Machine.execRdLen s
  | .rdBuf k => Sys2Proof.Machine.execRdBuf k s
  | .rdRec f => Sys2Proof.Machine.execRdRec f s
  | .rdCfg p => Sys2Proof.Machine.execRdCfg p s
  | .arm => Sys2Proof.Machine.execArm s
  | .rxIdleOther b => Sys2Proof.Machine.execRxIdleOther b s
  | .rxIdleStart => Sys2Proof.Machine.execRxIdleStart s
  | .rxAppend b => Sys2Proof.Machine.execRxAppend b s
  | .rxOverflow b => Sys2Proof.Machine.execRxOverflow b s
  | .crc16 bs => Sys2Proof.Machine.execCrc16 bs s

end Sys2Proof.Machine
end

