-- ==== Sys2Proof/Machine/Fetch.lean ====
section
/-! DEFINITION. Where an instruction's bytes stand: the line at the cursor `LP` in the frame, the trailer at `END`, the
next byte of the byte source; and how a frame is placed for a given instruction. -/

namespace Sys2Proof.Machine

/-- The line that begins at the cursor: up to the next line separator or the end of the frame (42_parser.md R177). -/
def lineAt (frame : List Byte) (lp : Nat) : List Byte := before lineFeed (frame.drop lp)

/-- The cursor after the line: one past the separator (42_parser.md R177). -/
def cursorAfter (frame : List Byte) (lp : Nat) : Nat := lp + (lineAt frame lp).length + 1

/-- The port of line `j` (30_encoding.md R103). -/
def linePort (j : Nat) : Port := if j = 0 then .line0 else .line

/-- The instruction of the line at the cursor. -/
def fetchLine (table : List TagRow) (frame : List Byte) (lp j : Nat) : Except DecodeError Instr :=
  decode (linePort j) table (lineAt frame lp)

/-- The instruction of the trailer (20_memory.md R78). -/
def fetchTrailer (table : List TagRow) (frame : List Byte) : Except DecodeError Instr :=
  decode .trailer table ((trailerOf frame).take 7)

/-- The case of RX for a byte (41_assembler.md R151 to R154). -/
def rxInstr (b : Byte) (s : State) : Instr :=
  match s.st with
  | .idle => if b = startMarker then .rxIdleStart else .rxIdleOther b
  | .assembling => if s.len < s.cfg.cap then .rxAppend b else .rxOverflow b
  | .ready => .rxAppend b

/-- Write bytes into the storage from an address on. -/
def storeAt (a : Nat) : List Byte → Memory → Memory
  | [], m => m
  | b :: bs, m => storeAt (a + 1) bs (m.write a b)

/-- A complete frame stands in the buffer. -/
def loadFrame (frame : List Byte) (s : State) : State :=
  ((s.withBuf (storeAt 0 frame s.buf)).withLen frame.length).withSt .ready

/-- `\n!0000\r\n`: the end of a frame placed by withFetchWord. -/
def closing : List Byte := [lineFeed, endMarker, 0x30#8, 0x30#8, 0x30#8, 0x30#8, carriageReturn, lineFeed]

/-- Place the bytes of a table row where `step` fetches next: a host operation at the head of the inbox, a line at the
cursor of a parse in flight, the trailer behind it (notes/assumptions/16.md). -/
def placeInstr (bytes : List Byte) (s : State) : State :=
  match portOfBytes bytes with
  | .host => (s.withInbox (.operation bytes :: s.inbox)).withAct .idle
  | .line0 => (loadFrame (bytes ++ closing) s).withAct (.parsing 0 0)
  | .line => (loadFrame (startMarker :: lineFeed :: bytes ++ closing) s).withAct (.parsing 2 1)
  | .trailer => (loadFrame (startMarker :: bytes) s).withAct (.parsing (bytes.length + 1) 1)

end Sys2Proof.Machine
end

