-- ==== Sys2Proof/Machine/Sequencer.lean ====
section
/-! DEFINITION. What one step runs, by the operation in flight: the next input of the environment, one
micro-operation of a POLL, one line of a PARSE (45_host.md R259; notes/assumptions/4.md). -/

namespace Sys2Proof.Machine

/-- Execute what the decoder answered, then `k`. -/
def execDecoded (d : Except DecodeError Instr) (s : State) (k : State → Result) : Result :=
  match d with
  | .ok i => andThen (exec i s) k
  | .error e => .refused (.undecodable e)

/-- The next input of the environment; without one the machine waits (10_state.md R50, 45_host.md R259). -/
def stepInput (s : State) : Result :=
  match s.inbox with
  | [] => .next s
  | .arrive bs :: rest => .next ((s.withInbox rest).withQ (s.q ++ bs))
  | .operation bytes :: rest =>
    execDecoded (decode .host s.cfg.tagtab bytes) (s.withInbox rest) .next

/-- One byte of a POLL in flight, or its end (41_assembler.md R158). -/
def stepReceive (s : State) : Result :=
  match s.q with
  | [] => .next (s.withAct .idle)
  | b :: q => if s.st = .ready then .next (s.withAct .idle) else exec (rxInstr b s) (s.withQ q)

/-- One line of a PARSE in flight, or its steps 5 and 6 (42_parser.md R170). The model's choice (DESIGN CHOICE,
notes/assumptions/26.md): such a point does not ask for `ST = Ready` again, which 20_memory.md R85 gives every PARSE. -/
def stepParse (lp j : Nat) (s : State) : Result :=
  withFrame s fun frame =>
    if lp < s.len then
      execDecoded (fetchLine s.cfg.tagtab frame lp j) s fun s' =>
        .next (s'.withAct (.parsing (cursorAfter frame lp) (j + 1)))
    else
      execDecoded (fetchTrailer s.cfg.tagtab frame) s fun s' => .next ((clearFrame s').withAct .idle)

end Sys2Proof.Machine
end

