-- ==== Sys2Proof/Machine/Step.lean ====
section
/-! DEFINITION. One step of the machine. With no operation in flight it takes the next input of the environment: bytes
arrive, or the host's operation is decoded and executed whole (10_state.md R20). Inside a POLL it runs one
micro-operation, inside a PARSE one line (45_host.md R259; notes/assumptions/4.md). -/

namespace Sys2Proof.Machine

/-- One step. -/
def step (s : State) : Host.Outcome State Fault Refusal :=
  match s.act with
  | .idle => stepInput s
  | .arming => andThen (exec .arm s) fun s' => .next (s'.withAct .receiving)
  | .receiving => stepReceive s
  | .parsing lp j => stepParse lp j s

/-- The instruction whose bits are `w`, stored where `step` fetches next. -/
def State.withFetchWord (s : State) (nbits w : Nat) : State := placeInstr (tableBytes nbits w) s

end Sys2Proof.Machine
end

