-- ==== Sys2Proof/Safety.lean ====
section
/-! DEFINITION. What a sound state is: the invariants I1 to I8 of 10_state.md R52, the shape of the record (R45, R46,
R48, R49), and the canonical form of the frame buffer's storage. -/

namespace Sys2Proof.Machine

/-- The shape of the record under a configuration: string registers within their capacities (R45), timestamp registers
of 13 bytes (R46), `NPF` log entries (R48), `NSUB` slots (R49), and I8. -/
structure RecordWf (c : Config) (r : Record) : Prop where
  hdr : r.hdr.length ≤ c.hdrMax
  ts : r.ts.length = stampLength
  equipId : r.equipId.length ≤ c.idMax
  msg : r.msg.length ≤ c.msgMax
  pflog : r.pflog.length = c.npf
  pflogEntry : ∀ e ∈ r.pflog, e.ts.length = stampLength
  dev : r.dev.length = c.nsub
  device : ∀ d ∈ r.dev, d.equipId.length ≤ c.idMax ∧ d.rdTs.length = stampLength ∧ d.rdUnit.length ≤ c.unitMax
  devN : r.devN ≤ c.nsub
  pflogN : r.pflogN ≤ c.npf

/-- The Frame Assembler's invariants, I1 to I7 of R52. -/
structure AssemblerWf (s : State) : Prop where
  /-- I1 -/
  bounded : s.len ≤ s.cfg.cap
  /-- I2 -/
  idle_iff : s.st = .idle ↔ s.len = 0
  /-- I3 -/
  starts : s.st ≠ .idle → s.buf.read 0 = startMarker
  /-- I4 -/
  unfinished : s.st = .assembling → ∀ k, k + 6 < s.len → s.buf.read k ≠ endMarker
  /-- I5 -/
  complete : s.st = .ready → 8 ≤ s.len ∧ s.buf.read (s.len - 7) = endMarker ∧
    ∀ k, k < s.len - 7 → s.buf.read k ≠ endMarker
  /-- I6 -/
  no_pin : s.cfg.fcEn = false → s.rts = .hiZ
  /-- I7 -/
  released : s.st = .ready → s.rts = .hiZ

/-- A sound state. -/
structure Sound (s : State) : Prop where
  cfg : s.cfg.wf = true
  memory : s.buf.wf = true
  assembler : AssemblerWf s
  record : RecordWf s.cfg s.record

/-! ## The terms in which statements speak of the text on the wire -/

/-- A byte string of decimal digits. -/
def AllDigits (ds : List Byte) : Prop := ∀ b ∈ ds, isDigit b = true

/-- A digit run that stands before these bytes ends there. -/
def RunEnds (tail : List Byte) : Prop := ∀ b, tail.head? = some b → isDigit b = false

/-- The bytes after a `'('` are no `FIX(W,F)` numeral (42_parser.md R183): too few of them, no `'.'` at offset `W`
when `F > 0`, or a digit position without a digit. -/
def NoFixNumeral (w f : Nat) (p : List Byte) : Prop :=
  (∃ k b, k < w ∧ p[k]? = some b ∧ isDigit b = false) ∨
    if f = 0 then p.length < w
    else p.length < w + f + 1 ∨ p[w]? ≠ some 0x2E#8 ∨
      ∃ k b, w < k ∧ k < w + f + 1 ∧ p[k]? = some b ∧ isDigit b = false

/-- The bytes after a `'('` are no duration (42_parser.md R186): no digit, a number of `2^32` or more, or more than 15
fraction digits. -/
def NoDuration (p : List Byte) : Prop :=
  RunEnds p ∨ ∃ ds rest, AllDigits ds ∧ RunEnds rest ∧
    ((p = ds ++ rest ∧ rest.head? ≠ some fullStop ∧ 2 ^ 32 ≤ dec ds) ∨
      ∃ fs, AllDigits fs ∧ p = ds ++ fullStop :: fs ++ rest ∧ (2 ^ 32 ≤ dec (ds ++ fs) ∨ 15 < fs.length))

/-- One entry of a power-failure log on the wire (30_encoding.md R111, R114; 44_fields_log_subdev.md R240): the bytes
from its first `'('` to its second, the whole and the fraction digits of the duration, and the bytes up to the next
entry. -/
structure LogText where
  head : List Byte
  ds : List Byte
  fs : List Byte
  rest : List Byte

/-- `'(' head '(' ds [ '.' fs ] rest`. -/
def LogText.wire (e : LogText) : List Byte :=
  openParen :: e.head ++ openParen :: e.ds ++ (if e.fs = [] then [] else fullStop :: e.fs) ++ e.rest

/-- The duration is one that fits its registers and ends where the text says, and the groups are those named. -/
structure LogText.Ok (e : LogText) : Prop where
  head : openParen ∉ e.head
  whole : AllDigits e.ds ∧ e.ds ≠ []
  fraction : AllDigits e.fs ∧ e.fs.length ≤ 15
  fits : dec (e.ds ++ e.fs) < 2 ^ 32
  rest : openParen ∉ e.rest
  ends : RunEnds e.rest ∧ (e.fs = [] → ∀ t, e.rest = fullStop :: t → RunEnds t)

/-- Entries, and what follows them. -/
def logWire (es : List LogText) (tail : List Byte) : List Byte := (es.map LogText.wire).flatten ++ tail

/-- The stamp of the first entry: the 13 bytes after its first `'('`, whatever they are (42_parser.md R184). -/
def logStamp (text : List Byte) : List Byte := (text.drop 1).take stampLength

/-- What the log stores for an entry with this stamp (10_state.md R48). -/
def LogText.entry (e : LogText) (stamp : List Byte) : LogEntry :=
  ⟨stamp, BitVec.ofNat 32 (dec (e.ds ++ e.fs)), BitVec.ofNat 4 e.fs.length⟩

/-- What follows the entries is no entry: it is empty, or its first group is too short for a stamp, or it has no second
group, or that holds no duration (44_fields_log_subdev.md R240, the four ways to `stop`). -/
def NoEntry (tail : List Byte) : Prop :=
  tail = [] ∨ ∃ u, tail = openParen :: u ∧
    (u.length < 13 ∨ openParen ∉ u ∨ ∃ c p, u = c ++ openParen :: p ∧ openParen ∉ c ∧ NoDuration p)

/-- A group that is skipped: `'(' t`. -/
def groupWire (t : List Byte) : List Byte := openParen :: t

/-- What a line stores into the record. -/
inductive Store where
  | hdr (t : List Byte)
  | num (d : NumDest) (v : Word32)
  | ts (t : List Byte)
  | equipId (t : List Byte)
  | msg (t : List Byte)
  | log (es : List LogEntry)
  | devTypeCode (k : Nat) (v : Word32)
  | devEquipId (k : Nat) (t : List Byte)
  | devReading (k : Nat) (ts : List Byte) (v : Word32) (u : List Byte)
deriving DecidableEq, Repr

/-- The slot an ordinal names, if it is in range (44_fields_log_subdev.md R241). -/
def slotOf (c : Config) (n : Nat) : Option Nat := if n = 0 ∨ c.nsub < n then none else some (n - 1)

/-- What a line instruction stores, if it does not skip or drop. -/
def stores (c : Config) (i : Instr) : Option Store :=
  match i with
  | .t01Version r g => (xNum r g).map (.num .version)
  | .t02Ts g => (xTs g).map .ts
  | .t03EquipId g => (xStr c.idMax g).map .equipId
  | .t04EDelT1 r g => (xNum r g).map (.num .eDelT1)
  | .t05EDelT2 r g => (xNum r g).map (.num .eDelT2)
  | .t06EProdT1 r g => (xNum r g).map (.num .eProdT1)
  | .t07EProdT2 r g => (xNum r g).map (.num .eProdT2)
  | .t08Tariff r g => (xNum r g).map (.num .tariff)
  | .t09PDel r g => (xNum r g).map (.num .pDel)
  | .t10PProd r g => (xNum r g).map (.num .pProd)
  | .t11PfShort r g => (xNum r g).map (.num .pfShort)
  | .t12PfLong r g => (xNum r g).map (.num .pfLong)
  | .t13Pflog g => (xPflog c.pflogSkip c.npf g).map .log
  | .t14SagL1 r g => (xNum r g).map (.num .sagL1)
  | .t15SagL2 r g => (xNum r g).map (.num .sagL2)
  | .t16SagL3 r g => (xNum r g).map (.num .sagL3)
  | .t17SwellL1 r g => (xNum r g).map (.num .swellL1)
  | .t18SwellL2 r g => (xNum r g).map (.num .swellL2)
  | .t19SwellL3 r g => (xNum r g).map (.num .swellL3)
  | .t20Msg g => (xStr c.msgMax g).map .msg
  | .t21VL1 r g => (xNum r g).map (.num .vL1)
  | .t22VL2 r g => (xNum r g).map (.num .vL2)
  | .t23VL3 r g => (xNum r g).map (.num .vL3)
  | .t24IL1 r g => (xNum r g).map (.num .iL1)
  | .t25IL2 r g => (xNum r g).map (.num .iL2)
  | .t26IL3 r g => (xNum r g).map (.num .iL3)
  | .t27PDelL1 r g => (xNum r g).map (.num .pDelL1)
  | .t28PDelL2 r g => (xNum r g).map (.num .pDelL2)
  | .t29PDelL3 r g => (xNum r g).map (.num .pDelL3)
  | .t30PProdL1 r g => (xNum r g).map (.num .pProdL1)
  | .t31PProdL2 r g => (xNum r g).map (.num .pProdL2)
  | .t32PProdL3 r g => (xNum r g).map (.num .pProdL3)
  | .t33DevTypeCode r n g => (slotOf c n).bind fun k => (xNum r g).map (.devTypeCode k)
  | .t34DevEquipId n g => (slotOf c n).bind fun k => (xStr c.idMax g).map (.devEquipId k)
  | .t35DevReading w f n g => (slotOf c n).bind fun k =>
      (xReading w f c.unitMax g).map fun (ts, v, u) => .devReading k ts v u
  | .header g => some (.hdr (headerText c.hdrMax g))
  | .endline _ _ _ _ _ _ | .unrecognised _ => none
  | .poll | .parse | .abort | .errclr | .rst | .rdStatus | .rdErr | .rdLen | .rdBuf _ | .rdRec _ | .rdCfg _ => none
  | .arm | .rxIdleOther _ | .rxIdleStart | .rxAppend _ | .rxOverflow _ | .crc16 _ => none

/-- The number stored into a numeric field. -/
def Store.num? (d : NumDest) : Store → Option Word32
  | .num d' v => if d' = d then some v else none
  | _ => none

/-- The stamp stored into `REC.TS`. -/
def Store.ts? : Store → Option (List Byte)
  | .ts t => some t
  | _ => none

/-- The text stored into `REC.EQUIP_ID`. -/
def Store.equipId? : Store → Option (List Byte)
  | .equipId t => some t
  | _ => none

/-- The text stored into `REC.MSG`. -/
def Store.msg? : Store → Option (List Byte)
  | .msg t => some t
  | _ => none

/-- The number of log entries stored. -/
def Store.count? : Store → Option Nat
  | .log es => some es.length
  | _ => none

/-- What is stored into slot `i` of the log. -/
def Store.entry? (i : Nat) : Store → Option LogEntry
  | .log es => es[i]?
  | _ => none

/-- The code stored into slot `k` of the sub-devices. -/
def Store.devTypeCode? (k : Nat) : Store → Option Word32
  | .devTypeCode k' v => if k' = k then some v else none
  | _ => none

/-- The identifier stored into slot `k` of the sub-devices. -/
def Store.devEquipId? (k : Nat) : Store → Option (List Byte)
  | .devEquipId k' t => if k' = k then some t else none
  | _ => none

/-- The stamp, value and unit stored into slot `k` of the sub-devices. -/
def Store.devReading? (k : Nat) : Store → Option (List Byte × Word32 × List Byte)
  | .devReading k' stamp v u => if k' = k then some (stamp, v, u) else none
  | _ => none

/-- The last of the values that stores give a register, or its default. -/
def lastStored {α : Type} (pick : Store → Option α) (default : α) (ws : List Store) : α :=
  ((ws.filterMap pick).getLast?).getD default

/-- The uppercase hexadecimal digit of a value below 16 (30_encoding.md R113). -/
def hexChar (v : Nat) : Byte := BitVec.ofNat 8 (if v < 10 then 0x30 + v else 0x41 + (v - 10))

/-- The four checksum characters of a value, most significant digit first (30_encoding.md R113, 20_memory.md R76). -/
def hexText (c : Word16) : List Byte :=
  [hexChar (c.toNat / 4096), hexChar (c.toNat / 256 % 16), hexChar (c.toNat / 16 % 16), hexChar (c.toNat % 16)]

end Sys2Proof.Machine
end

