-- ==== Sys2Proof/WellFormed.lean ====
section
/-! DEFINITION. Which terms of Instr are instructions: the checks an encoding imposes on the fields of a constructor,
under the tag table of the configuration (30_encoding.md R101, R105, R110; 41_assembler.md R151). -/

namespace Sys2Proof

/-- A byte string that can be (part of) a line: it holds no line separator (30_encoding.md R101). -/
def isLineText (bs : List Byte) : Bool := bs.all (· != lineFeed)

/-- The table has a row with this action (30_encoding.md R110). -/
def inTable (table : List TagRow) (a : RowAction) : Bool := table.any (·.action == a)

/-- A line of a main-meter row. -/
def mainLineWf (table : List TagRow) (a : RowAction) (g : List Byte) : Bool := inTable table a && isLineText g

/-- A line of a sub-device row: the ordinal is one digit (30_encoding.md R105). -/
def deviceLineWf (table : List TagRow) (a : RowAction) (n : Nat) (g : List Byte) : Bool :=
  mainLineWf table a g && decide (n ≤ 9)

/-- The instruction has an encoding under the table (the micro-operations and CRC16 have none, and their only check is
on the byte of `RX.idle_other`). -/
def WellFormed (table : List TagRow) : Instr → Bool
  | .t01Version r g => mainLineWf table (.num .version r) g
  | .t02Ts g => mainLineWf table .ts g
  | .t03EquipId g => mainLineWf table .equipId g
  | .t04EDelT1 r g => mainLineWf table (.num .eDelT1 r) g
  | .t05EDelT2 r g => mainLineWf table (.num .eDelT2 r) g
  | .t06EProdT1 r g => mainLineWf table (.num .eProdT1 r) g
  | .t07EProdT2 r g => mainLineWf table (.num .eProdT2 r) g
  | .t08Tariff r g => mainLineWf table (.num .tariff r) g
  | .t09PDel r g => mainLineWf table (.num .pDel r) g
  | .t10PProd r g => mainLineWf table (.num .pProd r) g
  | .t11PfShort r g => mainLineWf table (.num .pfShort r) g
  | .t12PfLong r g => mainLineWf table (.num .pfLong r) g
  | .t13Pflog g => mainLineWf table .pflog g
  | .t14SagL1 r g => mainLineWf table (.num .sagL1 r) g
  | .t15SagL2 r g => mainLineWf table (.num .sagL2 r) g
  | .t16SagL3 r g => mainLineWf table (.num .sagL3 r) g
  | .t17SwellL1 r g => mainLineWf table (.num .swellL1 r) g
  | .t18SwellL2 r g => mainLineWf table (.num .swellL2 r) g
  | .t19SwellL3 r g => mainLineWf table (.num .swellL3 r) g
  | .t20Msg g => mainLineWf table .msg g
  | .t21VL1 r g => mainLineWf table (.num .vL1 r) g
  | .t22VL2 r g => mainLineWf table (.num .vL2 r) g
  | .t23VL3 r g => mainLineWf table (.num .vL3 r) g
  | .t24IL1 r g => mainLineWf table (.num .iL1 r) g
  | .t25IL2 r g => mainLineWf table (.num .iL2 r) g
  | .t26IL3 r g => mainLineWf table (.num .iL3 r) g
  | .t27PDelL1 r g => mainLineWf table (.num .pDelL1 r) g
  | .t28PDelL2 r g => mainLineWf table (.num .pDelL2 r) g
  | .t29PDelL3 r g => mainLineWf table (.num .pDelL3 r) g
  | .t30PProdL1 r g => mainLineWf table (.num .pProdL1 r) g
  | .t31PProdL2 r g => mainLineWf table (.num .pProdL2 r) g
  | .t32PProdL3 r g => mainLineWf table (.num .pProdL3 r) g
  | .t33DevTypeCode r n g => deviceLineWf table (.devTypeCode r) n g
  | .t34DevEquipId n g => deviceLineWf table .devEquipId n g
  | .t35DevReading w f n g => deviceLineWf table (.devReading w f) n g
  | .header g => isLineText g
  | .endline _ _ _ _ _ _ => true
  | .unrecognised line => isLineText line && (findRow table line).isNone
  | .poll | .parse | .abort | .errclr | .rst | .rdStatus | .rdErr | .rdLen => true
  | .rdBuf i => decide (i < 2 ^ 32)
  | .rdRec f => decide (f.index < 2 ^ 32)
  | .rdCfg _ => true
  | .arm => true
  | .rxIdleOther b => b != startMarker
  | .rxIdleStart => true
  | .rxAppend _ | .rxOverflow _ => true
  | .crc16 _ => true

end Sys2Proof
end

