-- ==== Sys2Proof/Certificates/Slice0/Obligations.lean ====
section
/-! DEFINITION. The statements for the provers. Each docstring names the rule of spec/ it formalises; where a clause is
the model's own choice it names the log entry. -/

open Sys2Proof Sys2Proof.Machine

/-! ## Reset -/

/-- 10_state.md R53: after RST every piece of state has the value of the table. Marked in the spec as its own decision
or derivation: R53 (D35). -/
def Obligations.RstGivesTheResetTable : Prop :=
  ∀ s, ∃ t, exec .rst s = .next t ∧
    t.st = .idle ∧ t.len = 0 ∧ (∀ i, t.bufByte i = 0x00#8) ∧ t.ready = false ∧ t.rts = .hiZ ∧
    t.err = ⟨false, false, false⟩ ∧
    (∀ d, t.record.getNum d = 0#32) ∧
    t.record.hdr = [] ∧ t.record.equipId = [] ∧ t.record.msg = [] ∧
    t.record.ts = List.replicate 13 0x00#8 ∧
    t.record.pflogN = 0 ∧ t.record.devN = 0 ∧
    t.record.pflog = List.replicate s.cfg.npf ⟨List.replicate 13 0x00#8, 0#32, 0#4⟩ ∧
    t.record.dev = List.replicate s.cfg.nsub ⟨0#32, [], List.replicate 13 0x00#8, 0#32, []⟩ ∧
    t.record.crcTx = 0#16 ∧ t.record.crcCalc = 0#16 ∧ t.record.crcValid = false ∧
    t.cfg = s.cfg ∧ t.q = s.q

/-- 70_reset_and_hazards.md R310: the power-on state is the state RST produces, in everything a host can observe. The
model's choice besides (notes/assumptions/8.md, 9.md, 19.md): RST writes neither the storage of the buffer nor
`CRCREG`, and leaves the environment alone. Marked in the spec as its own decision or derivation: R310 (D35). -/
def Obligations.PowerOnStateIsWhatRstProduces : Prop :=
  ∀ s t, exec .rst s = .next t →
    ((State.resetWith s.cfg).st = t.st ∧ (State.resetWith s.cfg).len = t.len ∧
      (State.resetWith s.cfg).rts = t.rts ∧ (State.resetWith s.cfg).err = t.err ∧
      (State.resetWith s.cfg).record = t.record ∧ (State.resetWith s.cfg).cfg = t.cfg ∧
      ∀ i, (State.resetWith s.cfg).bufByte i = t.bufByte i) ∧
    (∀ a, t.buf.read a = s.buf.read a) ∧ t.crcReg = s.crcReg ∧ t.act = s.act ∧ t.q = s.q ∧ t.inbox = s.inbox ∧
    t.out = s.out

/-! ## The Frame Assembler -/

/-- 41_assembler.md R150: ARM. Marked in the spec as its own decision or derivation: R150 (D8). -/
def Obligations.ArmAssertsFlowControlOutsideReady : Prop :=
  ∀ s, exec .arm s = .next (if s.cfg.fcEn = true ∧ s.st ≠ .ready then s.withRts .high else s)

/-- 41_assembler.md R151, R152: in Idle a byte that is not the start marker is discarded; the start marker starts a
frame and is its first byte. -/
def Obligations.IdleDiscardsBytesUntilTheStartMarker : Prop :=
  ∀ (s : State), s.st = .idle →
    (∀ b, b ≠ 0x2F#8 → exec (.rxIdleOther b) s = .next s) ∧
    (0 < s.cfg.cap →
      ∃ m, exec .rxIdleStart s = .next (((s.withBuf m).withLen 1).withSt .assembling) ∧
        m.read 0 = 0x2F#8 ∧ ∀ a, a ≠ 0 → m.read a = s.buf.read a)

/-- 41_assembler.md R153: the byte is stored at `LEN`, then the byte six positions behind it decides. -/
def Obligations.AppendStoresAtLenAndTestsTheLookback : Prop :=
  ∀ s b, s.buf.wf = true → s.st = .assembling → s.len < s.cfg.cap →
    ∃ m, m.read s.len = b ∧ (∀ a, a ≠ s.len → m.read a = s.buf.read a) ∧
      exec (.rxAppend b) s = .next (
        if 7 ≤ s.len + 1 ∧ m.read (s.len + 1 - 7) = 0x21#8 then
          (((s.withBuf m).withLen (s.len + 1)).withSt .ready).withRts (if s.cfg.fcEn = true then .hiZ else s.rts)
        else (s.withBuf m).withLen (s.len + 1))

/-- 41_assembler.md R154: the byte that does not fit discards the frame and is then treated by the Idle rules. Marked
in the spec as its own decision or derivation: R154 (D11). -/
def Obligations.OverflowDiscardsTheFrame : Prop :=
  ∀ s b, s.st = .assembling → s.len = s.cfg.cap → 0 < s.cfg.cap →
    (b ≠ 0x2F#8 → exec (.rxOverflow b) s =
      .next (((s.withErr { s.err with ovf := true }).withLen 0).withSt .idle)) ∧
    (b = 0x2F#8 → ∃ m, exec (.rxOverflow b) s =
        .next ((((s.withErr { s.err with ovf := true }).withBuf m).withLen 1).withSt .assembling) ∧
      m.read 0 = 0x2F#8 ∧ ∀ a, a ≠ 0 → m.read a = s.buf.read a)

/-- 41_assembler.md R151 to R155: a case of RX is enabled under its condition only (outside it the micro-operation is
refused, notes/assumptions/12.md), none is in Ready, and there POLL leaves everything as it is. Marked in the spec as
its own decision or derivation: R154 (D11); R155 (D9). -/
def Obligations.RxCasesAreEnabledOnlyUnderTheirConditions : Prop :=
  ∀ (s : State) (b : Byte),
    (¬(s.st = .idle ∧ b ≠ 0x2F#8) → exec (.rxIdleOther b) s = .refused .rxCaseNotEnabled) ∧
    (s.st ≠ .idle → exec .rxIdleStart s = .refused .rxCaseNotEnabled) ∧
    (¬(s.st = .assembling ∧ s.len < s.cfg.cap) → exec (.rxAppend b) s = .refused .rxCaseNotEnabled) ∧
    (¬(s.st = .assembling ∧ s.cfg.cap ≤ s.len) → exec (.rxOverflow b) s = .refused .rxCaseNotEnabled) ∧
    (s.st = .ready → exec .poll s = .next s)

/-- 41_assembler.md R158: POLL always ends, either Ready or with every available byte read, and what it leaves unread
is the rest of the byte source; it touches nothing but the assembler. Marked in the spec as its own decision or
derivation: R158 (D2, D9). -/
def Obligations.PollEndsReadyOrDrained : Prop :=
  ∀ s, Sound s →
    ∃ m n st rts ovf rest,
      exec .poll s = .next ((((((s.withBuf m).withLen n).withSt st).withRts rts).withErr
        { s.err with ovf := ovf }).withQ rest) ∧
      rest <:+ s.q ∧ (st = .ready ∨ rest = []) ∧ (s.err.ovf = true → ovf = true) ∧
      ∀ a, s.cfg.cap ≤ a → m.read a = s.buf.read a

/-- 41_assembler.md R158 (e): only the concatenation of the bytes matters, not how they are cut into polls. Marked in
the spec as its own decision or derivation: R158 (D2, D9). -/
def Obligations.PollsOfTwoPiecesEqualOnePoll : Prop :=
  ∀ (s : State) (q1 q2 : List Byte),
    exec .poll (s.withQ (q1 ++ q2)) =
      andThen (exec .poll (s.withQ q1)) fun t => exec .poll (t.withQ (t.q ++ q2))

/-- 41_assembler.md R151 to R153, R156, R158: from Idle, a POLL that finds a whole telegram stores it from its start
marker on, byte by byte in arrival order, stops at the sixth byte after the first end marker, releases flow control in
that step, and leaves the rest unread. Marked in the spec as its own decision or derivation: R156 (D10); R158 (D2,
D9). -/
def Obligations.PollAssemblesAWholeTelegram : Prop :=
  ∀ s junk body six rest, s.buf.wf = true → s.st = .idle →
    0x2F#8 ∉ junk → 0x21#8 ∉ body → six.length = 6 → body.length + 8 ≤ s.cfg.cap →
    s.q = junk ++ 0x2F#8 :: body ++ 0x21#8 :: six ++ rest →
    ∃ m, exec .poll s = .next (((((s.withBuf m).withLen (body.length + 8)).withSt .ready).withRts
        (if s.cfg.fcEn = true then .hiZ else s.rts)).withQ rest) ∧
      m.range 0 (body.length + 8) = 0x2F#8 :: body ++ 0x21#8 :: six ∧
      ∀ a, body.length + 8 ≤ a → m.read a = s.buf.read a

/-- 41_assembler.md R157: ABORT abandons a frame in progress and does nothing in Idle and Ready. Marked in the spec as
its own decision or derivation: R157 (D32). -/
def Obligations.AbortDropsThePartialFrame : Prop :=
  ∀ s, exec .abort s = .next (if s.st = .assembling then
    ((s.withErr { s.err with abt := true }).withLen 0).withSt .idle else s)

/-- 41_assembler.md R160: no operation ever writes a byte of the buffer at `CAP` or above. Marked in the spec as its
own decision or derivation: R160 (derived). -/
def Obligations.NothingIsStoredAtOrAboveCapacity : Prop :=
  ∀ i s t, exec i s = .next t → ∀ a, s.cfg.cap ≤ a → t.buf.read a = s.buf.read a

/-! ## The host operations that do not parse -/

/-- 45_host.md R264, R266, R267: RD_ERR returns the three bits, ERRCLR clears them and touches nothing else, RD_LEN
returns the length; the reads change no state of the core. Marked in the spec as its own decision or derivation: R264,
R266 (D31). -/
def Obligations.ErrorReportIsReadAndCleared : Prop :=
  ∀ (s : State), exec .errclr s = .next (s.withErr ⟨false, false, false⟩) ∧
    (∃ w : BitVec 3, exec .rdErr s = .next (s.withOut (.err w)) ∧
      w.toNat = (if s.err.ovf = true then 1 else 0) + (if s.err.sig = true then 2 else 0)
        + (if s.err.abt = true then 4 else 0)) ∧
    exec .rdLen s = .next (s.withOut (.number s.len))

/-- 10_state.md R26, 45_host.md R265: the bits of `STATUS`; reading changes no state of the core. Marked in the spec
as its own decision or derivation: R26 (D36). -/
def Obligations.RdStatusPacksTheStatusWord : Prop :=
  ∀ s, ∃ w : BitVec 8, exec .rdStatus s = .next (s.withOut (.status w)) ∧
    w.toNat = (match s.st with | .idle => 0 | .assembling => 1 | .ready => 2)
      + (if s.st = .ready then 4 else 0) + (if s.rts = .high then 8 else 0) + (if s.cfg.fcEn = true then 16 else 0)

/-- 45_host.md R268: RD_BUF returns the stored byte below `LEN` and zero above it. The model's choice
(notes/assumptions/11.md): an unused code of the index port, from `CAP` up to the next power of two, reads zero, and
an index the port cannot carry is refused. Marked in the spec as its own decision or derivation: R268 (D30). -/
def Obligations.RdBufReadsTheFrameAndZeroAboveIt : Prop :=
  ∀ (s : State) (i : Nat),
    (i < s.cfg.cap →
      exec (.rdBuf i) s = .next (s.withOut (.byte (if i < s.len then s.buf.read i else 0x00#8)))) ∧
    ∀ k, s.cfg.cap ≤ i → 2 ^ k < 2 * s.cfg.cap → s.cfg.cap ≤ 2 ^ k →
      (i < 2 ^ k → exec (.rdBuf i) s = .next (s.withOut (.byte 0x00#8))) ∧
      (2 ^ k ≤ i → exec (.rdBuf i) s = .refused (.indexOutsidePort i))

/-- 45_host.md R270: RD_REC returns the named field; of an array, every element that exists (10_state.md R48, R49).
The model's choice (notes/assumptions/18.md): an element that does not exist is refused. Marked in the spec as its own
decision or derivation: R270 (D37); R48 (D24, D25); R49 (D27). -/
def Obligations.RdRecReturnsTheNamedField : Prop :=
  ∀ s, RecordWf s.cfg s.record →
    (∀ d, exec (.rdRec (.num d)) s = .next (s.withOut (.word (s.record.getNum d)))) ∧
    exec (.rdRec .hdr) s = .next (s.withOut (.text s.record.hdr)) ∧
    exec (.rdRec .ts) s = .next (s.withOut (.text s.record.ts)) ∧
    exec (.rdRec .equipId) s = .next (s.withOut (.text s.record.equipId)) ∧
    exec (.rdRec .msg) s = .next (s.withOut (.text s.record.msg)) ∧
    exec (.rdRec .devN) s = .next (s.withOut (.number s.record.devN)) ∧
    exec (.rdRec .pflogN) s = .next (s.withOut (.number s.record.pflogN)) ∧
    exec (.rdRec .crcTx) s = .next (s.withOut (.half s.record.crcTx)) ∧
    exec (.rdRec .crcCalc) s = .next (s.withOut (.half s.record.crcCalc)) ∧
    exec (.rdRec .crcValid) s = .next (s.withOut (.flag s.record.crcValid)) ∧
    (∀ i, i < s.cfg.npf → ∃ e, s.record.pflog[i]? = some e ∧
      exec (.rdRec (.pflogTs i)) s = .next (s.withOut (.text e.ts)) ∧
      exec (.rdRec (.pflogMant i)) s = .next (s.withOut (.word e.mant)) ∧
      exec (.rdRec (.pflogFrac i)) s = .next (s.withOut (.nibble e.frac))) ∧
    (∀ k, k < s.cfg.nsub → ∃ d, s.record.dev[k]? = some d ∧
      exec (.rdRec (.devTypeCode k)) s = .next (s.withOut (.word d.typeCode)) ∧
      exec (.rdRec (.devEquipId k)) s = .next (s.withOut (.text d.equipId)) ∧
      exec (.rdRec (.devRdTs k)) s = .next (s.withOut (.text d.rdTs)) ∧
      exec (.rdRec (.devRdVal k)) s = .next (s.withOut (.word d.rdVal)) ∧
      exec (.rdRec (.devRdUnit k)) s = .next (s.withOut (.text d.rdUnit))) ∧
    ∀ k, (s.cfg.npf ≤ k → ∀ f, f = .pflogTs k ∨ f = .pflogMant k ∨ f = .pflogFrac k →
        exec (.rdRec f) s = .refused (.noSuchField f)) ∧
      (s.cfg.nsub ≤ k → ∀ f, f = .devTypeCode k ∨ f = .devEquipId k ∨ f = .devRdTs k ∨ f = .devRdVal k ∨
        f = .devRdUnit k → exec (.rdRec f) s = .refused (.noSuchField f))

/-- 10_state.md R28: the configuration is readable by the host (45_host.md R271: RD_CFG returns the parameter) and
constant: no operation writes it. That the three device codes are 32-bit words is the model's choice
(notes/assumptions/27.md). Marked in the spec as its own decision or derivation: R271 (D36). -/
def Obligations.ConfigurationIsReadableAndConstant : Prop :=
  (∀ (s : State),
    exec (.rdCfg .cap) s = .next (s.withOut (.number s.cfg.cap)) ∧
    exec (.rdCfg .fcEn) s = .next (s.withOut (.flag s.cfg.fcEn)) ∧
    exec (.rdCfg .nsub) s = .next (s.withOut (.number s.cfg.nsub)) ∧
    exec (.rdCfg .npf) s = .next (s.withOut (.number s.cfg.npf)) ∧
    exec (.rdCfg .pflogSkip) s = .next (s.withOut (.number s.cfg.pflogSkip)) ∧
    exec (.rdCfg .hdrMax) s = .next (s.withOut (.number s.cfg.hdrMax)) ∧
    exec (.rdCfg .idMax) s = .next (s.withOut (.number s.cfg.idMax)) ∧
    exec (.rdCfg .msgMax) s = .next (s.withOut (.number s.cfg.msgMax)) ∧
    exec (.rdCfg .unitMax) s = .next (s.withOut (.number s.cfg.unitMax)) ∧
    exec (.rdCfg .tagtab) s = .next (s.withOut (.table s.cfg.tagtab)) ∧
    exec (.rdCfg .devGas) s = .next (s.withOut (.word s.cfg.devGas)) ∧
    exec (.rdCfg .devThermal) s = .next (s.withOut (.word s.cfg.devThermal)) ∧
    exec (.rdCfg .devWater) s = .next (s.withOut (.word s.cfg.devWater))) ∧
  ∀ i s t, exec i s = .next t → t.cfg = s.cfg

/-! ## PARSE -/

/-- 45_host.md R263: a request to parse when no frame is Ready is ignored. Marked in the spec as its own decision or
derivation: R263 (D13). -/
def Obligations.ParseIsIgnoredUnlessReady : Prop :=
  ∀ s, s.st ≠ .ready → exec .parse s = .next s

/-- 42_parser.md R195, R196: PARSE of a Ready frame always completes, in Idle with the buffer empty, whatever bytes
the frame holds; it writes the record and `ERR.SIG` (set only), and never `RTS`, the other error bits or the byte
source. The model's choice: the stored bytes stay as they are (notes/assumptions/8.md), a Ready state without a whole
trailer, which no run reaches, completes too (notes/assumptions/14.md), and the checksum stays in `CRCREG`, the
engine's own register (40_crc.md R142; notes/assumptions/9.md). Marked in the spec as its own decision or derivation:
R196 (derived); R142 (D40). -/
def Obligations.ParseAlwaysEndsIdleAndEmpty : Prop :=
  ∀ s, s.st = .ready → s.len ≤ s.cfg.cap →
    ∃ r c sig, exec .parse s =
      .next (((((s.withRecord r).withCrcReg c).withErr { s.err with sig := sig }).withLen 0).withSt .idle) ∧
      (s.err.sig = true → sig = true)

/-- 42_parser.md R171: no residual data bleeds across parses. Marked in the spec as its own decision or derivation:
R171 (D29). -/
def Obligations.ParseForgetsThePreviousRecord : Prop :=
  ∀ (s : State) (r : Record), s.st = .ready → exec .parse (s.withRecord r) = exec .parse s

/-- 42_parser.md R191 to R194: the computed checksum covers the frame through its end marker, the four characters
after it are the transmitted one, and validity is their equality; a malformed character is the framing error SIG.
Marked in the spec as its own decision or derivation: R193 (D12). -/
def Obligations.ParseComparesTheChecksums : Prop :=
  ∀ s, Sound s → s.st = .ready →
    ∃ t, exec .parse s = .next t ∧
      t.record.crcCalc = crc16 (s.buf.range 0 (s.len - 6)) ∧
      (∀ tx, hex4 (s.buf.read (s.len - 6)) (s.buf.read (s.len - 5)) (s.buf.read (s.len - 4))
          (s.buf.read (s.len - 3)) = some tx →
        t.record.crcTx = tx ∧ (t.record.crcValid = true ↔ t.record.crcCalc = tx) ∧ t.err = s.err) ∧
      (hex4 (s.buf.read (s.len - 6)) (s.buf.read (s.len - 5)) (s.buf.read (s.len - 4))
          (s.buf.read (s.len - 3)) = none →
        t.record.crcTx = 0x0000#16 ∧ t.record.crcValid = false ∧ t.err = { s.err with sig := true })

/-- 42_parser.md R174: the header text is line 0 without its start marker, ended by the line separator or the end
marker, without one `0x0D` before it, truncated. Marked in the spec as its own decision or derivation: R174 (D18). -/
def Obligations.ParseStoresTheHeaderText : Prop :=
  ∀ s, Sound s → s.st = .ready →
    ∃ t, exec .parse s = .next t ∧
      ∀ text stop rest, 0x0A#8 ∉ text → 0x21#8 ∉ text → (stop = 0x0A#8 ∨ stop = 0x21#8) →
        (s.frame = 0x2F#8 :: text ++ 0x0D#8 :: stop :: rest → t.record.hdr = text.take s.cfg.hdrMax) ∧
        (text.getLast? ≠ some 0x0D#8 → s.frame = 0x2F#8 :: text ++ stop :: rest →
          t.record.hdr = text.take s.cfg.hdrMax)

/-- 42_parser.md R175: the sub-device count is the number after the last `'-'` before the end marker, at most `NSUB`,
and 0 without such a `'-'` or without a digit after it. Marked in the spec as its own decision or derivation: R175
(D19). -/
def Obligations.ParseCountsTheSubDevices : Prop :=
  ∀ s, Sound s → s.st = .ready →
    ∃ t, exec .parse s = .next t ∧
      ∀ body trailer, s.frame = body ++ 0x21#8 :: trailer → 0x21#8 ∉ body →
        (0x2D#8 ∉ body → t.record.devN = 0) ∧
        ∀ pre ds post, body = pre ++ 0x2D#8 :: ds ++ post → 0x2D#8 ∉ ds → 0x2D#8 ∉ post → AllDigits ds →
          RunEnds post → t.record.devN = min (dec ds) s.cfg.nsub

/-- 42_parser.md R188, with R171, R177, R178, R181, and 44_fields_log_subdev.md R240 to R244: after PARSE each register
that the tag rows write (the 28 numeric fields, `TS`, `EQUIP_ID`, `MSG`, every slot of the log and their number, every
field of every sub-device slot) holds what the last line stored into it that did not skip or drop, and its default
(10_state.md R47) if there is none. The last clause is 10_state.md R48, entries at `PFLOG_N` and above are default, for
a frame in which at most one line stores a log; after two, R240's own corner holds (notes/assumptions/13.md). Marked in
the spec as its own decision or derivation: R188 (D38, derived); R171 (D29); R177 (D17); R181 (D39); R240 (D24, D25,
D28); R241 (D21); R242 (D27, D28); R243 (D28); R244 (D26, D28); R47 (D29); R48 (D24, D25). -/
def Obligations.ParseKeepsTheLastNumberOfEachField : Prop :=
  ∀ s, s.st = .ready → s.len ≤ s.cfg.cap →
    ∃ t, exec .parse s = .next t ∧
      ∀ ws, ws = (frameProgram s.cfg.tagtab s.frame).filterMap (stores s.cfg) →
        (∀ d, t.record.getNum d = lastStored (Store.num? d) 0#32 ws) ∧
        t.record.ts = lastStored Store.ts? (List.replicate 13 0x00#8) ws ∧
        t.record.equipId = lastStored Store.equipId? [] ws ∧
        t.record.msg = lastStored Store.msg? [] ws ∧
        t.record.pflogN = lastStored Store.count? 0 ws ∧
        (∀ i, i < s.cfg.npf → t.record.pflog[i]? =
          some (lastStored (Store.entry? i) ⟨List.replicate 13 0x00#8, 0#32, 0#4⟩ ws)) ∧
        (∀ k, k < s.cfg.nsub → ∃ e, t.record.dev[k]? = some e ∧
          e.typeCode = lastStored (Store.devTypeCode? k) 0#32 ws ∧
          e.equipId = lastStored (Store.devEquipId? k) [] ws ∧
          (e.rdTs, e.rdVal, e.rdUnit) =
            lastStored (Store.devReading? k) (List.replicate 13 0x00#8, 0#32, []) ws) ∧
        ((ws.filterMap Store.count?).length ≤ 1 → ∀ i, t.record.pflogN ≤ i → i < s.cfg.npf →
          t.record.pflog[i]? = some ⟨List.replicate 13 0x00#8, 0#32, 0#4⟩)

/-! ## The lines of a telegram

The spec runs these instructions inside PARSE, in Ready. That they have the same effect when executed alone in any state
is the model's choice (notes/assumptions/26.md). -/

/-- 43_fields_main.md, 44_fields_log_subdev.md, 42_parser.md R174, R179: every line instruction (the 35 tag rows,
HEADER and UNRECOGNISED) completes in every state and writes nothing but the record. That it holds in every `ST` is
the model's choice (notes/assumptions/26.md). Marked in the spec as its own decision or derivation: R174 (D18). -/
def Obligations.LinesWriteOnlyTheRecord : Prop :=
  ∀ i s, i.port = .line ∨ i.port = .line0 → ∃ r, exec i s = .next (s.withRecord r)

/-- 42_parser.md R180, R181: without a `'('` after the tag every tag row skips: the state is unchanged. The rows are
the 28 numeric ones (`NumDest.toInstr`), T02, T03, T13, T20, T33, T34 and T35. That it holds in every `ST` is the
model's choice (notes/assumptions/26.md). Marked in the spec as its own decision or derivation: R180 (D20); R181
(D39). -/
def Obligations.RowsWithoutAGroupSkip : Prop :=
  ∀ (s : State) (g : List Byte), 0x28#8 ∉ g →
    (∀ (d : NumDest) r, exec (d.toInstr r g) s = .next s) ∧
    exec (.t02Ts g) s = .next s ∧ exec (.t03EquipId g) s = .next s ∧
    exec (.t13Pflog g) s = .next s ∧ exec (.t20Msg g) s = .next s ∧
    ∀ n, (∀ r, exec (.t33DevTypeCode r n g) s = .next s) ∧ exec (.t34DevEquipId n g) s = .next s ∧
      ∀ w f, exec (.t35DevReading w f n g) s = .next s

/-- 42_parser.md R182: an `INT` row stores the number its digit run writes; without a `'('`, without a digit, or with
a number of `2^32` or more, it skips. The rows are T01, T04 to T12, T14 to T19, T21 to T32 (`NumDest.toInstr` names
the row of a field; 43_fields_main.md R200, R203 to R211, R213 to R218, R220 to R231 give each row its register and
nothing else; a row whose default rule is FIX has INT through a `TAGTAB` only). The first two clauses are R182's
primitive itself, which T33 uses too. That it holds in every `ST` is the model's choice (notes/assumptions/26.md).
Marked in the spec as its own decision or derivation: R204 to R211, R213 to R218, R220 to R231 (D28). -/
def Obligations.IntRowsStoreTheDigitRun : Prop :=
  ∀ (d : NumDest) (s : State) (pre ds tail : List Byte), 0x28#8 ∉ pre → AllDigits ds → RunEnds tail →
    xNum .int pre = none ∧
    xNum .int (pre ++ 0x28#8 :: ds ++ tail) =
      (if ds ≠ [] ∧ dec ds < 2 ^ 32 then some (BitVec.ofNat 32 (dec ds)) else none) ∧
    exec (d.toInstr .int pre) s = .next s ∧
    exec (d.toInstr .int (pre ++ 0x28#8 :: ds ++ tail)) s =
      .next (if ds ≠ [] ∧ dec ds < 2 ^ 32 then s.withRecord (s.record.setNum d (BitVec.ofNat 32 (dec ds))) else s)

/-- 42_parser.md R183, R187: a `FIX(W,F)` row stores its whole and fraction digits as one number; what follows them is
not examined. The rows are T01, T04 to T12, T14 to T19, T21 to T32 (43_fields_main.md R200, R203 to R211, R213 to
R218, R220 to R231 give each its register and nothing else; a row whose default rule is INT has FIX through a `TAGTAB`
only). That it holds in every `ST` is the model's choice (notes/assumptions/26.md). Marked in the spec as its own
decision or derivation: R183 (D15); R187 (D14); R204 to R211, R213 to R218, R220 to R231 (D28). -/
def Obligations.FixRowsStoreTheScaledNumber : Prop :=
  ∀ (d : NumDest) (s : State) (pre ws fs tail : List Byte), 0x28#8 ∉ pre → AllDigits ws → AllDigits fs →
    (fs ≠ [] → exec (d.toInstr (.fix ws.length fs.length) (pre ++ 0x28#8 :: ws ++ 0x2E#8 :: fs ++ tail)) s =
      .next (if dec (ws ++ fs) < 2 ^ 32 then
        s.withRecord (s.record.setNum d (BitVec.ofNat 32 (dec (ws ++ fs)))) else s)) ∧
    exec (d.toInstr (.fix ws.length 0) (pre ++ 0x28#8 :: ws ++ tail)) s =
      .next (if dec ws < 2 ^ 32 then s.withRecord (s.record.setNum d (BitVec.ofNat 32 (dec ws))) else s)

/-- 60_exceptions.md R284, 42_parser.md R183: a `FIX(W,F)` row skips when too few bytes follow the `'('`, when the
byte at offset `W` is not `'.'` (for `F > 0`), or when a digit position holds no digit. That it holds in every `ST` is
the model's choice (notes/assumptions/26.md). Marked in the spec as its own decision or derivation: R284 (D14, D16,
D39); R183 (D15). -/
def Obligations.FixRowsSkipMalformedNumerals : Prop :=
  ∀ (d : NumDest) (s : State) (w f : Nat) (pre p : List Byte), 0x28#8 ∉ pre → NoFixNumeral w f p →
    exec (d.toInstr (.fix w f) (pre ++ 0x28#8 :: p)) s = .next s

/-- 20_memory.md R76: the value of a decimal numeral. Marked in the spec as its own decision or derivation: R76
(general knowledge). -/
def Obligations.DecimalNumeralIsMostSignificantFirst : Prop :=
  ∀ ds, dec ds =
    ∑ i ∈ Finset.range ds.length, ((ds.getD i 0x30#8).toNat - 0x30) * 10 ^ (ds.length - 1 - i)

/-- 10_state.md R30: no numeric field of the record aliases another. Marked in the spec as its own decision or
derivation: R30 (D37). -/
def Obligations.NumericFieldsDoNotAlias : Prop :=
  ∀ (r : Record) d v, (r.setNum d v).getNum d = v ∧
    ∀ d', d' ≠ d → (r.setNum d v).getNum d' = r.getNum d'

/-- 43_fields_main.md R201, R202, R219, 42_parser.md R184, R185: T02 copies the 13 bytes after the first `'('`,
whatever they are; T03 and T20 store what stands between the first `'('` and the last two bytes of the line, truncated
to the register. With fewer than 13, or 2, bytes they skip. That it holds in every `ST` is the model's choice
(notes/assumptions/26.md). Marked in the spec as its own decision or derivation: R202, R219 (D28); R184 (D22); R185
(D6, D23). -/
def Obligations.TextRowsCopyTheirBytes : Prop :=
  ∀ (s : State) (pre p text : List Byte) (x y : Byte), 0x28#8 ∉ pre →
    exec (.t02Ts (pre ++ 0x28#8 :: p)) s =
      .next (if 13 ≤ p.length then s.withRecord (s.record.withTs (p.take 13)) else s) ∧
    exec (.t03EquipId (pre ++ 0x28#8 :: text ++ [x, y])) s =
      .next (s.withRecord (s.record.withEquipId (text.take s.cfg.idMax))) ∧
    exec (.t20Msg (pre ++ 0x28#8 :: text ++ [x, y])) s =
      .next (s.withRecord (s.record.withMsg (text.take s.cfg.msgMax))) ∧
    (p.length < 2 → exec (.t03EquipId (pre ++ 0x28#8 :: p)) s = .next s ∧
      exec (.t20Msg (pre ++ 0x28#8 :: p)) s = .next s)

/-- 44_fields_log_subdev.md R240: T13 on a line of the layout of 30_encoding.md R111: the count, `PFLOG_SKIP` groups,
then entries. The first entries, at most the count and at most `NPF`, overwrite the first slots in order, and
`PFLOG_N` is their number; the other slots keep their values. The stamp of an entry is the 13 bytes after its first
`'('`, which may hold the second; its duration is the number behind the second. What follows the entries is no entry
(`NoEntry`): it is empty, its first group is too short for a stamp, it has no second group, or that holds no duration
(42_parser.md R186: no digit, `2^32` or more, more than 15 fraction digits). That it holds in every `ST` is the
model's choice (notes/assumptions/26.md). Marked in the spec as its own decision or derivation: R240 (D24, D25, D28);
R111 (D25, general knowledge); R186 (D24). -/
def Obligations.PowerFailureLogRowStoresItsEntries : Prop :=
  ∀ (s : State) (pre cs lead : List Byte) (groups : List (List Byte)) (es : List LogText) (tail : List Byte),
    0x28#8 ∉ pre → AllDigits cs → cs ≠ [] → 0x28#8 ∉ lead → RunEnds lead → groups.length = s.cfg.pflogSkip →
    (∀ t ∈ groups, 0x28#8 ∉ t) → (∀ e ∈ es, e.Ok) → NoEntry tail →
    (∀ i, i < es.length → 13 < (logWire (es.drop i) tail).length) →
    ∃ k log, k = min es.length (min (dec cs) s.cfg.npf) ∧
      exec (.t13Pflog (pre ++ 0x28#8 :: cs ++ lead ++ (groups.map groupWire).flatten ++ logWire es tail)) s =
        .next (s.withRecord ((s.record.withPflog log).withPflogN k)) ∧
      (∀ i e, i < k → es[i]? = some e → log[i]? = some (e.entry (logStamp (logWire (es.drop i) tail)))) ∧
      (∀ i, k ≤ i → log[i]? = s.record.pflog[i]?)

/-- 44_fields_log_subdev.md R240: T13 skips, and writes neither `PFLOG_N` nor a slot, without a digit after the first
`'('`, or with fewer than `PFLOG_SKIP` groups behind it. That it holds in every `ST` is the model's choice
(notes/assumptions/26.md). Marked in the spec as its own decision or derivation: R240 (D24, D25, D28). -/
def Obligations.PowerFailureLogRowSkipsWithoutItsGroups : Prop :=
  ∀ (s : State) (pre p : List Byte), 0x28#8 ∉ pre → RunEnds p ∨ p.count 0x28#8 < s.cfg.pflogSkip →
    exec (.t13Pflog (pre ++ 0x28#8 :: p)) s = .next s

/-- 44_fields_log_subdev.md R241, 60_exceptions.md R287: a sub-device line whose ordinal is 0 or above `NSUB` is
dropped, whichever of T33, T34, T35 it is. That it holds in every `ST` is the model's choice
(notes/assumptions/26.md). Marked in the spec as its own decision or derivation: R241, R287 (D21). -/
def Obligations.OrdinalOutOfRangeIsDropped : Prop :=
  ∀ s n g, (n = 0 ∨ s.cfg.nsub < n) →
    (∀ r, exec (.t33DevTypeCode r n g) s = .next s) ∧ exec (.t34DevEquipId n g) s = .next s ∧
    ∀ w f, exec (.t35DevReading w f n g) s = .next s

/-- 44_fields_log_subdev.md R241 to R243: T33 writes the type code, T34 the equipment identifier of slot `N-1`, and
neither touches another slot; without a number T33 skips, without two bytes after its `'('` T34 skips. That it holds
in every `ST` is the model's choice (notes/assumptions/26.md). Marked in the spec as its own decision or derivation:
R241 (D21); R242 (D27, D28); R243 (D28). -/
def Obligations.DeviceTypeAndIdRowsWriteTheirSlot : Prop :=
  ∀ (s : State) (n : Nat) (r : NumRule) (g pre text : List Byte) (x y : Byte) (old : Device),
    s.record.dev.length = s.cfg.nsub → 1 ≤ n → n ≤ s.cfg.nsub → s.record.dev[n - 1]? = some old → 0x28#8 ∉ pre →
    (∀ v, xNum r g = some v →
      ∃ dev, exec (.t33DevTypeCode r n g) s = .next (s.withRecord (s.record.withDev dev)) ∧
        dev[n - 1]? = some { old with typeCode := v } ∧ ∀ k, k ≠ n - 1 → dev[k]? = s.record.dev[k]?) ∧
    (xNum r g = none → exec (.t33DevTypeCode r n g) s = .next s) ∧
    (text.length < 2 → exec (.t34DevEquipId n (pre ++ 0x28#8 :: text)) s = .next s) ∧
    ∃ dev, exec (.t34DevEquipId n (pre ++ 0x28#8 :: text ++ [x, y])) s =
        .next (s.withRecord (s.record.withDev dev)) ∧
      dev[n - 1]? = some { old with equipId := text.take s.cfg.idMax } ∧
      ∀ k, k ≠ n - 1 → dev[k]? = s.record.dev[k]?

/-- 44_fields_log_subdev.md R241, R244, 30_encoding.md R112: T35 writes stamp, value and unit of slot `N-1` together,
and no other slot. The stamp is the 13 bytes after the first `'('`, which may hold the second; the value is the
numeral behind the second. That it holds in every `ST` is the model's choice (notes/assumptions/26.md). Marked in the
spec as its own decision or derivation: R241 (D21); R244 (D26, D28). -/
def Obligations.DeviceReadingRowWritesItsSlot : Prop :=
  ∀ (s : State) (n : Nat) (pre c ws fs mid u tail a : List Byte) (old : Device),
    s.record.dev.length = s.cfg.nsub → 1 ≤ n → n ≤ s.cfg.nsub → 0x28#8 ∉ pre → 0x28#8 ∉ c →
    AllDigits ws → AllDigits fs → dec (ws ++ fs) < 2 ^ 32 → 0x2A#8 ∉ mid → 0x29#8 ∉ u →
    a = c ++ 0x28#8 :: ws ++ (if fs = [] then [] else 0x2E#8 :: fs) ++ mid ++ 0x2A#8 :: u ++ 0x29#8 :: tail →
    13 ≤ a.length → s.record.dev[n - 1]? = some old →
    ∃ dev, exec (.t35DevReading ws.length fs.length n (pre ++ 0x28#8 :: a)) s =
        .next (s.withRecord (s.record.withDev dev)) ∧
      dev[n - 1]? = some { old with
        rdTs := a.take 13, rdVal := BitVec.ofNat 32 (dec (ws ++ fs)), rdUnit := u.take s.cfg.unitMax } ∧
      ∀ k, k ≠ n - 1 → dev[k]? = s.record.dev[k]?

/-- 44_fields_log_subdev.md R244, 42_parser.md R183, R187, R189: a reading without a 13-byte stamp, without a second
group, without a numeral in it, with one of `2^32` or more, without a `'*'` after its `'('`, or without a `')'` after
the `'*'` writes none of its three fields. That it holds in every `ST` is the model's choice
(notes/assumptions/26.md). Marked in the spec as its own decision or derivation: R244 (D26, D28); R183 (D15); R187
(D14); R189 (D25, D26). -/
def Obligations.IncompleteReadingWritesNothing : Prop :=
  ∀ (s : State) (w f n : Nat) (pre a : List Byte), 0x28#8 ∉ pre →
    (a.length < 13 ∨ 0x28#8 ∉ a ∨ ∃ c b, a = c ++ 0x28#8 :: b ∧ 0x28#8 ∉ c ∧
      (NoFixNumeral w f b ∨
        (∃ ws fs t, AllDigits ws ∧ AllDigits fs ∧ ws.length = w ∧ fs.length = f ∧
          b = ws ++ (if fs = [] then [] else 0x2E#8 :: fs) ++ t ∧ 2 ^ 32 ≤ dec (ws ++ fs)) ∨
        0x2A#8 ∉ b ∨ ∃ v u, b = v ++ 0x2A#8 :: u ∧ 0x2A#8 ∉ v ∧ 0x29#8 ∉ u)) →
    exec (.t35DevReading w f n (pre ++ 0x28#8 :: a)) s = .next s

/-- 10_state.md R49: the device type of a stored code. The width of the configured codes is the model's choice
(notes/assumptions/27.md). Marked in the spec as its own decision or derivation: R49 (D27). -/
def Obligations.DeviceTypeClassifiesTheCode : Prop :=
  ∀ c code, c.wf = true →
    (deviceType c code = .gas ↔ code = c.devGas) ∧ (deviceType c code = .thermal ↔ code = c.devThermal) ∧
    (deviceType c code = .water ↔ code = c.devWater) ∧
    (code ≠ c.devGas → code ≠ c.devThermal → code ≠ c.devWater → deviceType c code = .unknown code)

/-- 42_parser.md R179: an unrecognised line does nothing, and a line is decoded as one exactly when no row of the
table matches it. That it holds in every `ST` is the model's choice (notes/assumptions/26.md). -/
def Obligations.UnrecognisedLinesDoNothing : Prop :=
  (∀ s line, exec (.unrecognised line) s = .next s) ∧
  ∀ table line, decodeLine table line = .unrecognised line ↔ ∀ r ∈ table, matchPattern r.pattern line = none

/-- 42_parser.md R174, as the instruction HEADER: the text before the first end marker, without one trailing `0x0D`.
That it holds in every `ST` is the model's choice (notes/assumptions/26.md). Marked in the spec as its own decision or
derivation: R174 (D18). -/
def Obligations.HeaderLineStoresItsText : Prop :=
  ∀ s text rest, 0x21#8 ∉ text → (rest = [] ∨ ∃ u, rest = 0x21#8 :: u) →
    exec (.header (text ++ 0x0D#8 :: rest)) s = .next (s.withRecord (s.record.withHdr (text.take s.cfg.hdrMax))) ∧
    (text.getLast? ≠ some 0x0D#8 →
      exec (.header (text ++ rest)) s = .next (s.withRecord (s.record.withHdr (text.take s.cfg.hdrMax))))

/-- 42_parser.md R191 to R194, 60_exceptions.md R282, R285: step 5 of PARSE as the instruction ENDLINE on the frame in
the buffer. In the spec it runs inside PARSE only, on the frame's own four characters. The model's choice: executed
alone, in any `ST`, it checks the frame against the characters it is given (notes/assumptions/22.md, 26.md), and leaves
the checksum in `CRCREG` (notes/assumptions/9.md). Marked in the spec as its own decision or derivation: R193 (D12);
R282 (D12). -/
def Obligations.EndlineChecksTheFrame : Prop :=
  ∀ s c1 c2 c3 c4 t1 t2 body trailer, s.len ≤ s.cfg.cap → s.frame = body ++ 0x21#8 :: trailer → 0x21#8 ∉ body →
    ∃ t, exec (.endline c1 c2 c3 c4 t1 t2) s = .next t ∧
      (∀ tx, hex4 c1 c2 c3 c4 = some tx →
        t = (s.withCrcReg (crc16 (body ++ [0x21#8]))).withRecord
          (((s.record.withCrcCalc (crc16 (body ++ [0x21#8]))).withCrcTx tx).withCrcValid
            (decide (crc16 (body ++ [0x21#8]) = tx)))) ∧
      (hex4 c1 c2 c3 c4 = none →
        t = ((s.withCrcReg (crc16 (body ++ [0x21#8]))).withErr { s.err with sig := true }).withRecord
          (((s.record.withCrcCalc (crc16 (body ++ [0x21#8]))).withCrcTx 0x0000#16).withCrcValid false))

/-! ## The Checksum Engine -/

/-- 40_crc.md R140, R141, R142: CRC16 leaves the checksum of its bytes in `CRCREG` (which the spec calls no state:
notes/assumptions/9.md); with no bytes it is 0, and a further byte is one `crc_upd`: exclusive-or of the byte into
bits 7:0 (the spec's general knowledge: notes/assumptions/21.md), then eight times a shift right, with an exclusive-or
with `0xA001` when the bit shifted out is 1. The last two clauses are the worked examples of R140 and R141. Marked in
the spec as its own decision or derivation: R140, R141 (D34, general knowledge); R142 (D40). -/
def Obligations.ChecksumEngineFoldsItsBytes : Prop :=
  (∀ s bs, exec (.crc16 bs) s = .next (s.withCrcReg (crc16 bs))) ∧ crc16 [] = 0x0000#16 ∧
  (∀ x b, crc16 (x ++ [b]) = crcUpd (crc16 x) b) ∧
  (∀ c b, crcUpd c b =
    Nat.iterate (fun k : Word16 => if k.getLsbD 0 = true then (k >>> 1) ^^^ 0xA001#16 else k >>> 1) 8
      (c ^^^ BitVec.zeroExtend 16 b)) ∧
  crcUpd 0x0000#16 0x01#8 = 0xC0C1#16 ∧
  crc16 [0x31#8, 0x32#8, 0x33#8, 0x34#8, 0x35#8, 0x36#8, 0x37#8, 0x38#8, 0x39#8] = 0xBB3D#16

/-- 40_crc.md R143: linearity, streaming, the appended checksum, and what one byte step depends on. Marked in the spec
as its own decision or derivation: R143 (derived). -/
def Obligations.ChecksumLaws : Prop :=
  (∀ x y : List Byte, x.length = y.length →
    crc16 (List.zipWith (· ^^^ ·) x y) = crc16 x ^^^ crc16 y) ∧
  (∀ x y, crc16 (x ++ y) = y.foldl crcUpd (crc16 x)) ∧
  (∀ x, crc16 (x ++ [(crc16 x).setWidth 8, (crc16 x >>> 8).setWidth 8]) = 0x0000#16) ∧
  ∀ c b, crcUpd c b = (c >>> 8) ^^^ crcUpd 0x0000#16 (c.setWidth 8 ^^^ b)

/-- 40_crc.md R145: altering any single byte of a message changes its checksum. Marked in the spec as its own decision
or derivation: R145 (derived). -/
def Obligations.ChecksumDetectsOneAlteredByte : Prop :=
  ∀ x y b b', b ≠ b' → crc16 (x ++ b :: y) ≠ crc16 (x ++ b' :: y)

/-- 30_encoding.md R113, 20_memory.md R76: the transmitted checksum is read from four uppercase hexadecimal digits,
the first the most significant, and from nothing else. Marked in the spec as its own decision or derivation: R113
(D12); R76 (general knowledge). -/
def Obligations.HexTextReadsBack : Prop :=
  (∀ c : Word16, ∃ c1 c2 c3 c4, hexText c = [c1, c2, c3, c4] ∧ hex4 c1 c2 c3 c4 = some c) ∧
  ∀ c1 c2 c3 c4 v, hex4 c1 c2 c3 c4 = some v → hexText v = [c1, c2, c3, c4]

/-- 40_crc.md R145 on the whole block: a telegram whose checksum characters are those of its body (which may be empty)
is received and parsed as valid, and the same telegram with one byte of its body altered is parsed as invalid. The
characters are four uppercase hexadecimal digits (30_encoding.md R113), the first the most significant (20_memory.md
R76, the spec's general knowledge: notes/assumptions/21.md). Marked in the spec as its own decision or derivation:
R145 (derived); R113 (D12); R76 (general knowledge). -/
def Obligations.OwnChecksumIsValidAndOneAlteredByteIsNot : Prop :=
  ∀ s body t1 t2, Sound s → s.st = .idle → 0x21#8 ∉ body → body.length + 8 ≤ s.cfg.cap →
    (∃ t u, exec .poll (s.withQ (0x2F#8 :: body ++ 0x21#8 :: hexText (crc16 (0x2F#8 :: body ++ [0x21#8]))
        ++ [t1, t2])) = .next t ∧ exec .parse t = .next u ∧ u.record.crcValid = true ∧ u.err = s.err) ∧
    ∀ pre post b b', body = pre ++ b :: post → b ≠ b' → b' ≠ 0x21#8 →
      ∃ t u, exec .poll (s.withQ (0x2F#8 :: (pre ++ b' :: post) ++ 0x21#8
          :: hexText (crc16 (0x2F#8 :: body ++ [0x21#8])) ++ [t1, t2])) = .next t ∧
        exec .parse t = .next u ∧ u.record.crcValid = false ∧ u.err = s.err

/-! ## Encodings -/

/-- 30_encoding.md R100 to R121, 45_host.md R259: decoding the bytes of a well-formed instruction gives it back, for
every instruction that has an encoding and every legal tag table. The operand bytes of RD_BUF, RD_REC and RD_CFG are
the model's choice (notes/assumptions/6.md). Marked in the spec as its own decision or derivation: R101 (D17); R104,
R115 (D20); R105 (D20, D21); R107 (D15); R108 (D22); R109 (D23); R110 (D28, general knowledge); R111 (D25); R113
(D12); R114 (D24); R119 (D2, D36); R121 (D36); R259 (D1, D2, D36). -/
def Obligations.DecodeGivesBackWhatWasEncoded : Prop :=
  ∀ table i bytes, rowsDisjoint table = true → (∀ r ∈ table, r.shapely = true) →
    WellFormed table i = true → encode table i = some bytes → decode i.port table bytes = .ok i

/-- 30_encoding.md R105, R115: a row matches a line by the prefix test; in a legal table no line matches two rows; the
default table is legal. Marked in the spec as its own decision or derivation: R105 (D20, D21); R115 (D20). -/
def Obligations.TagDispatchIsAnUnambiguousPrefixTest : Prop :=
  (∀ (ps : List PatByte) (bs g : List Byte), matchPattern ps bs = some g ↔
    ps.length ≤ bs.length ∧ g = bs.drop ps.length ∧
      ∀ k, k < ps.length → ∃ p b, ps[k]? = some p ∧ bs[k]? = some b ∧
        (∀ c, p = .lit c → b = c) ∧ (p = .digit → 0x30 ≤ b.toNat ∧ b.toNat ≤ 0x39)) ∧
  rowsDisjoint defaultTagTable = true ∧
  ∀ (table : List TagRow) (line : List Byte) (k l : Nat) (r r' : TagRow), rowsDisjoint table = true →
    table[k]? = some r → table[l]? = some r' →
    matchPattern r.pattern line ≠ none → matchPattern r'.pattern line ≠ none → k = l

/-- 30_encoding.md R101: how a frame is cut into lines: no line holds a separator, and the lines with their separators
make up the frame, whose last line may lack one. Marked in the spec as its own decision or derivation: R101 (D17). -/
def Obligations.LinesAreCutAtEachSeparator : Prop :=
  ∀ frame, (∀ l ∈ splitLines frame, 0x0A#8 ∉ l) ∧
    ((frame = [] ∨ frame.getLast? = some 0x0A#8) →
      ((splitLines frame).map (· ++ [0x0A#8])).flatten = frame) ∧
    (frame ≠ [] → frame.getLast? ≠ some 0x0A#8 →
      ((splitLines frame).map (· ++ [0x0A#8])).flatten = frame ++ [0x0A#8])

/-- A few words written out from 30_encoding.md R110 and 45_host.md R259, and what they decode to; codes 0, 6, 7 and
14 to 255 are not operations. The model's choice: that the port of a table word is told by its first byte and that a
host operation shorter than its length is filled with zero operand bytes (notes/assumptions/17.md), and the operand
bytes of RD_BUF (notes/assumptions/6.md). Marked in the spec as its own decision or derivation: R110 (D28, general
knowledge); R259 (D1, D2, D36). -/
def Obligations.WrittenWordsDecode : Prop :=
  decodeTableWord 72 0x382E322E303A332D31 = some (.t01Version .int []) ∧
  decodeTableWord 72 0x312E382E313A302D31 = some (.t04EDelT1 (.fix 6 3) []) ∧
  decodeTableWord 80 0x302E312E34323A322D30 = some (.t33DevTypeCode .int 2 []) ∧
  decodeTableWord 8 0x2F = some (.header []) ∧ decodeTableWord 8 0x01 = some .poll ∧
  decodeTableWord 8 0x0B = some (.rdBuf 0) ∧
  ∀ (c : Byte) (ops : List Byte), (c.toNat = 0 ∨ c.toNat = 6 ∨ c.toNat = 7 ∨ 14 ≤ c.toNat) →
    decodeHost (c :: ops) = .error (.notAnOperation c.toNat)

/-! ## Steps -/

/-- A step runs the decoded instruction, at each of the model's three places of fetch (10_state.md R20, R29,
41_assembler.md R158, 42_parser.md R170, R177; the places are the model's interface, notes/assumptions/4.md, 5.md).
With no operation in flight, at a request that decodes to an instruction: that instruction, whole, with the request
taken from the inbox (a request that does not decode is refused, bytes that arrive join the byte source, and an empty
inbox changes nothing). Inside a PARSE (whatever `ST` is, notes/assumptions/26.md), at a cursor before the end of the
frame: the instruction of the line there, and the cursor moves past its separator; at the end of the frame: the
trailer's instruction, and the frame is cleared. Inside a POLL: ARM, then the case of RX whose condition holds for the
head of the byte source; with the byte source empty, or in Ready with bytes left, the POLL ends and nothing else
changes. Marked in the spec as its own decision or derivation: R158 (D2, D9); R177 (D17). -/
def Obligations.StepRunsTheDecodedInstruction : Prop :=
  ∀ (s : State) (i : Instr),
    (s.act = .idle → s.inbox = [] → step s = .next s) ∧
    (∀ bs rest, s.act = .idle → s.inbox = .arrive bs :: rest →
      step s = .next ((s.withInbox rest).withQ (s.q ++ bs))) ∧
    (∀ bytes rest, s.act = .idle → s.inbox = .operation bytes :: rest →
      (decode .host s.cfg.tagtab bytes = .ok i → step s = exec i (s.withInbox rest)) ∧
      ∀ e, decode .host s.cfg.tagtab bytes = .error e → step s = .refused (.undecodable e)) ∧
    (∀ lp j, s.act = .parsing lp j → s.len ≤ s.cfg.cap →
      (lp < s.len → fetchLine s.cfg.tagtab s.frame lp j = .ok i →
        step s = andThen (exec i s) fun t => .next (t.withAct (.parsing (cursorAfter s.frame lp) (j + 1)))) ∧
      (s.len ≤ lp → fetchTrailer s.cfg.tagtab s.frame = .ok i →
        step s = andThen (exec i s) fun t => .next (((t.withLen 0).withSt .idle).withAct .idle))) ∧
    (s.act = .arming → step s = andThen (exec .arm s) fun t => .next (t.withAct .receiving)) ∧
    (s.act = .receiving → s.q = [] ∨ s.st = .ready → step s = .next (s.withAct .idle)) ∧
    ∀ b q, s.act = .receiving → s.q = b :: q →
      (s.st = .idle → b ≠ 0x2F#8 → step s = exec (.rxIdleOther b) (s.withQ q)) ∧
      (s.st = .idle → b = 0x2F#8 → step s = exec .rxIdleStart (s.withQ q)) ∧
      (s.st = .assembling → s.len < s.cfg.cap → step s = exec (.rxAppend b) (s.withQ q)) ∧
      (s.st = .assembling → s.cfg.cap ≤ s.len → step s = exec (.rxOverflow b) (s.withQ q))

/-- 42_parser.md R170 against the line-by-line machine (notes/assumptions/4.md): from a Ready frame, stepping line by
line from the point where the record is defaulted and the sub-devices counted reaches exactly the state in which the
atomic PARSE ends. -/
def Obligations.LineByLineParseReachesTheAtomicResult : Prop :=
  ∀ s, Sound s → s.st = .ready → s.act = .idle →
    ∃ n t, exec .parse s = .next t ∧
      Host.Core.run Sys2Proof.core n ((beginParse s.frame s).withAct (.parsing 0 0)) = .next t

/-- 41_assembler.md R158 against the byte-by-byte machine (notes/assumptions/4.md): stepping ARM and then one byte at
a time reaches exactly the state in which the atomic POLL ends. Marked in the spec as its own decision or derivation:
R158 (D2, D9). -/
def Obligations.ByteByBytePollReachesTheAtomicResult : Prop :=
  ∀ s, Sound s → s.act = .idle →
    ∃ n t, exec .poll s = .next t ∧ Host.Core.run Sys2Proof.core n (s.withAct .arming) = .next t

/-! ## Whole-machine rules -/

/-- 10_state.md R52 (I1 to I8), R45, R46: soundness (the invariants, the shape of the record, the canonical form of
the storage) is kept by every step. Marked in the spec as its own decision or derivation: R52 (derived); R45 (D6); R46
(D22). -/
def Obligations.EveryStepKeepsTheMachineSound : Prop :=
  ∀ s t, Sound s → step s = .next t → Sound t

/-- 10_state.md R52, R53: the state after reset is sound, for every legal configuration; that of State.reset is legal.
Marked in the spec as its own decision or derivation: R52 (derived); R53 (D35). -/
def Obligations.ResetIsSound : Prop :=
  (∀ c, c.wf = true → Sound (State.resetWith c)) ∧ Sound State.reset

/-- 00_scope.md R12: a fault never occurs. -/
def Obligations.NoFaultInASoundState : Prop :=
  ∀ s, Sound s → (∀ f, step s ≠ .fault f) ∧ ∀ i f, exec i s ≠ .fault f

/-- 10_state.md R30, 45_host.md R270: of the host's operations and their micro-operations only PARSE and RST write the
record. Marked in the spec as its own decision or derivation: R30, R270 (D37). -/
def Obligations.OnlyParseAndRstWriteTheRecord : Prop :=
  ∀ i s t, exec i s = .next t → i.port = .host → i ≠ .parse → i ≠ .rst → t.record = s.record

/-- 10_state.md R21, R25, R27: an error bit is set only by its event's operations, and cleared only by RST or ERRCLR;
`RTS` is written only by ARM, POLL, the RX step that appends, and RST, and raised only by ARM and POLL; `ST` only by
RST, POLL, RX, ABORT and PARSE. Marked in the spec as its own decision or derivation: R21 (D36); R25 (D31, D39); R27
(D8). -/
def Obligations.StatusChangesOnlyByTheNamedOperations : Prop :=
  ∀ i s t, exec i s = .next t →
    (i ≠ .rst → i ≠ .errclr → (s.err.ovf = true → t.err.ovf = true) ∧ (s.err.sig = true → t.err.sig = true) ∧
      (s.err.abt = true → t.err.abt = true)) ∧
    (s.err.ovf = false → t.err.ovf = true → i = .poll ∨ ∃ b, i = .rxOverflow b) ∧
    (s.err.sig = false → t.err.sig = true →
      i = .parse ∨ ∃ c1 c2 c3 c4 t1 t2, i = .endline c1 c2 c3 c4 t1 t2) ∧
    (s.err.abt = false → t.err.abt = true → i = .abort ∧ s.st = .assembling) ∧
    (t.rts ≠ s.rts → i = .arm ∨ i = .poll ∨ i = .rst ∨ ∃ b, i = .rxAppend b) ∧
    (t.rts = .high → s.rts = .hiZ → i = .arm ∨ i = .poll) ∧
    (t.st ≠ s.st → i = .rst ∨ i = .poll ∨ i = .abort ∨ i = .parse ∨ i = .rxIdleStart ∨
      ∃ b, i = .rxAppend b ∨ i = .rxOverflow b)

/-- 20_memory.md R84: in Ready nothing writes the buffer or its length except PARSE's final clear and RST. R84 excepts
these two from the writes of the buffer as well; that they leave the stored bytes is the model's choice
(notes/assumptions/8.md). -/
def Obligations.ReadyBufferIsFrozen : Prop :=
  ∀ i s t, s.st = .ready → exec i s = .next t →
    (∀ a, t.buf.read a = s.buf.read a) ∧ (i ≠ .parse → i ≠ .rst → t.len = s.len ∧ t.st = .ready)
end

