-- ==== Sys2Proof/Laws/State.lean ====
section
/-! SUPPORT. What one update of the state or of the record leaves: one lemma per field per update. -/

namespace Sys2Proof.Machine

/-! ## Updates of the state -/

@[simp] theorem State.withSt_cfg (s : State) (v : AsmState) : (s.withSt v).cfg = s.cfg := rfl
@[simp] theorem State.withSt_st (s : State) (v : AsmState) : (s.withSt v).st = v := rfl
@[simp] theorem State.withSt_len (s : State) (v : AsmState) : (s.withSt v).len = s.len := rfl
@[simp] theorem State.withSt_buf (s : State) (v : AsmState) : (s.withSt v).buf = s.buf := rfl
@[simp] theorem State.withSt_err (s : State) (v : AsmState) : (s.withSt v).err = s.err := rfl
@[simp] theorem State.withSt_rts (s : State) (v : AsmState) : (s.withSt v).rts = s.rts := rfl
@[simp] theorem State.withSt_record (s : State) (v : AsmState) : (s.withSt v).record = s.record := rfl
@[simp] theorem State.withSt_crcReg (s : State) (v : AsmState) : (s.withSt v).crcReg = s.crcReg := rfl
@[simp] theorem State.withSt_act (s : State) (v : AsmState) : (s.withSt v).act = s.act := rfl
@[simp] theorem State.withSt_q (s : State) (v : AsmState) : (s.withSt v).q = s.q := rfl
@[simp] theorem State.withSt_inbox (s : State) (v : AsmState) : (s.withSt v).inbox = s.inbox := rfl
@[simp] theorem State.withSt_out (s : State) (v : AsmState) : (s.withSt v).out = s.out := rfl
@[simp] theorem State.withSt_withSt (s : State) (v w : AsmState) : (s.withSt v).withSt w = s.withSt w := rfl
@[simp] theorem State.withSt_self (s : State) : s.withSt s.st = s := rfl

@[simp] theorem State.withLen_cfg (s : State) (v : Nat) : (s.withLen v).cfg = s.cfg := rfl
@[simp] theorem State.withLen_st (s : State) (v : Nat) : (s.withLen v).st = s.st := rfl
@[simp] theorem State.withLen_len (s : State) (v : Nat) : (s.withLen v).len = v := rfl
@[simp] theorem State.withLen_buf (s : State) (v : Nat) : (s.withLen v).buf = s.buf := rfl
@[simp] theorem State.withLen_err (s : State) (v : Nat) : (s.withLen v).err = s.err := rfl
@[simp] theorem State.withLen_rts (s : State) (v : Nat) : (s.withLen v).rts = s.rts := rfl
@[simp] theorem State.withLen_record (s : State) (v : Nat) : (s.withLen v).record = s.record := rfl
@[simp] theorem State.withLen_crcReg (s : State) (v : Nat) : (s.withLen v).crcReg = s.crcReg := rfl
@[simp] theorem State.withLen_act (s : State) (v : Nat) : (s.withLen v).act = s.act := rfl
@[simp] theorem State.withLen_q (s : State) (v : Nat) : (s.withLen v).q = s.q := rfl
@[simp] theorem State.withLen_inbox (s : State) (v : Nat) : (s.withLen v).inbox = s.inbox := rfl
@[simp] theorem State.withLen_out (s : State) (v : Nat) : (s.withLen v).out = s.out := rfl
@[simp] theorem State.withLen_withLen (s : State) (v w : Nat) : (s.withLen v).withLen w = s.withLen w := rfl
@[simp] theorem State.withLen_self (s : State) : s.withLen s.len = s := rfl

@[simp] theorem State.withBuf_cfg (s : State) (v : Memory) : (s.withBuf v).cfg = s.cfg := rfl
@[simp] theorem State.withBuf_st (s : State) (v : Memory) : (s.withBuf v).st = s.st := rfl
@[simp] theorem State.withBuf_len (s : State) (v : Memory) : (s.withBuf v).len = s.len := rfl
@[simp] theorem State.withBuf_buf (s : State) (v : Memory) : (s.withBuf v).buf = v := rfl
@[simp] theorem State.withBuf_err (s : State) (v : Memory) : (s.withBuf v).err = s.err := rfl
@[simp] theorem State.withBuf_rts (s : State) (v : Memory) : (s.withBuf v).rts = s.rts := rfl
@[simp] theorem State.withBuf_record (s : State) (v : Memory) : (s.withBuf v).record = s.record := rfl
@[simp] theorem State.withBuf_crcReg (s : State) (v : Memory) : (s.withBuf v).crcReg = s.crcReg := rfl
@[simp] theorem State.withBuf_act (s : State) (v : Memory) : (s.withBuf v).act = s.act := rfl
@[simp] theorem State.withBuf_q (s : State) (v : Memory) : (s.withBuf v).q = s.q := rfl
@[simp] theorem State.withBuf_inbox (s : State) (v : Memory) : (s.withBuf v).inbox = s.inbox := rfl
@[simp] theorem State.withBuf_out (s : State) (v : Memory) : (s.withBuf v).out = s.out := rfl
@[simp] theorem State.withBuf_withBuf (s : State) (v w : Memory) : (s.withBuf v).withBuf w = s.withBuf w := rfl
@[simp] theorem State.withBuf_self (s : State) : s.withBuf s.buf = s := rfl

@[simp] theorem State.withErr_cfg (s : State) (v : Err) : (s.withErr v).cfg = s.cfg := rfl
@[simp] theorem State.withErr_st (s : State) (v : Err) : (s.withErr v).st = s.st := rfl
@[simp] theorem State.withErr_len (s : State) (v : Err) : (s.withErr v).len = s.len := rfl
@[simp] theorem State.withErr_buf (s : State) (v : Err) : (s.withErr v).buf = s.buf := rfl
@[simp] theorem State.withErr_err (s : State) (v : Err) : (s.withErr v).err = v := rfl
@[simp] theorem State.withErr_rts (s : State) (v : Err) : (s.withErr v).rts = s.rts := rfl
@[simp] theorem State.withErr_record (s : State) (v : Err) : (s.withErr v).record = s.record := rfl
@[simp] theorem State.withErr_crcReg (s : State) (v : Err) : (s.withErr v).crcReg = s.crcReg := rfl
@[simp] theorem State.withErr_act (s : State) (v : Err) : (s.withErr v).act = s.act := rfl
@[simp] theorem State.withErr_q (s : State) (v : Err) : (s.withErr v).q = s.q := rfl
@[simp] theorem State.withErr_inbox (s : State) (v : Err) : (s.withErr v).inbox = s.inbox := rfl
@[simp] theorem State.withErr_out (s : State) (v : Err) : (s.withErr v).out = s.out := rfl
@[simp] theorem State.withErr_withErr (s : State) (v w : Err) : (s.withErr v).withErr w = s.withErr w := rfl
@[simp] theorem State.withErr_self (s : State) : s.withErr s.err = s := rfl

@[simp] theorem State.withRts_cfg (s : State) (v : Rts) : (s.withRts v).cfg = s.cfg := rfl
@[simp] theorem State.withRts_st (s : State) (v : Rts) : (s.withRts v).st = s.st := rfl
@[simp] theorem State.withRts_len (s : State) (v : Rts) : (s.withRts v).len = s.len := rfl
@[simp] theorem State.withRts_buf (s : State) (v : Rts) : (s.withRts v).buf = s.buf := rfl
@[simp] theorem State.withRts_err (s : State) (v : Rts) : (s.withRts v).err = s.err := rfl
@[simp] theorem State.withRts_rts (s : State) (v : Rts) : (s.withRts v).rts = v := rfl
@[simp] theorem State.withRts_record (s : State) (v : Rts) : (s.withRts v).record = s.record := rfl
@[simp] theorem State.withRts_crcReg (s : State) (v : Rts) : (s.withRts v).crcReg = s.crcReg := rfl
@[simp] theorem State.withRts_act (s : State) (v : Rts) : (s.withRts v).act = s.act := rfl
@[simp] theorem State.withRts_q (s : State) (v : Rts) : (s.withRts v).q = s.q := rfl
@[simp] theorem State.withRts_inbox (s : State) (v : Rts) : (s.withRts v).inbox = s.inbox := rfl
@[simp] theorem State.withRts_out (s : State) (v : Rts) : (s.withRts v).out = s.out := rfl
@[simp] theorem State.withRts_withRts (s : State) (v w : Rts) : (s.withRts v).withRts w = s.withRts w := rfl
@[simp] theorem State.withRts_self (s : State) : s.withRts s.rts = s := rfl

@[simp] theorem State.withRecord_cfg (s : State) (v : Record) : (s.withRecord v).cfg = s.cfg := rfl
@[simp] theorem State.withRecord_st (s : State) (v : Record) : (s.withRecord v).st = s.st := rfl
@[simp] theorem State.withRecord_len (s : State) (v : Record) : (s.withRecord v).len = s.len := rfl
@[simp] theorem State.withRecord_buf (s : State) (v : Record) : (s.withRecord v).buf = s.buf := rfl
@[simp] theorem State.withRecord_err (s : State) (v : Record) : (s.withRecord v).err = s.err := rfl
@[simp] theorem State.withRecord_rts (s : State) (v : Record) : (s.withRecord v).rts = s.rts := rfl
@[simp] theorem State.withRecord_record (s : State) (v : Record) : (s.withRecord v).record = v := rfl
@[simp] theorem State.withRecord_crcReg (s : State) (v : Record) : (s.withRecord v).crcReg = s.crcReg := rfl
@[simp] theorem State.withRecord_act (s : State) (v : Record) : (s.withRecord v).act = s.act := rfl
@[simp] theorem State.withRecord_q (s : State) (v : Record) : (s.withRecord v).q = s.q := rfl
@[simp] theorem State.withRecord_inbox (s : State) (v : Record) : (s.withRecord v).inbox = s.inbox := rfl
@[simp] theorem State.withRecord_out (s : State) (v : Record) : (s.withRecord v).out = s.out := rfl
@[simp] theorem State.withRecord_withRecord (s : State) (v w : Record) : (s.withRecord v).withRecord w = s.withRecord w := rfl
@[simp] theorem State.withRecord_self (s : State) : s.withRecord s.record = s := rfl

@[simp] theorem State.withCrcReg_cfg (s : State) (v : Word16) : (s.withCrcReg v).cfg = s.cfg := rfl
@[simp] theorem State.withCrcReg_st (s : State) (v : Word16) : (s.withCrcReg v).st = s.st := rfl
@[simp] theorem State.withCrcReg_len (s : State) (v : Word16) : (s.withCrcReg v).len = s.len := rfl
@[simp] theorem State.withCrcReg_buf (s : State) (v : Word16) : (s.withCrcReg v).buf = s.buf := rfl
@[simp] theorem State.withCrcReg_err (s : State) (v : Word16) : (s.withCrcReg v).err = s.err := rfl
@[simp] theorem State.withCrcReg_rts (s : State) (v : Word16) : (s.withCrcReg v).rts = s.rts := rfl
@[simp] theorem State.withCrcReg_record (s : State) (v : Word16) : (s.withCrcReg v).record = s.record := rfl
@[simp] theorem State.withCrcReg_crcReg (s : State) (v : Word16) : (s.withCrcReg v).crcReg = v := rfl
@[simp] theorem State.withCrcReg_act (s : State) (v : Word16) : (s.withCrcReg v).act = s.act := rfl
@[simp] theorem State.withCrcReg_q (s : State) (v : Word16) : (s.withCrcReg v).q = s.q := rfl
@[simp] theorem State.withCrcReg_inbox (s : State) (v : Word16) : (s.withCrcReg v).inbox = s.inbox := rfl
@[simp] theorem State.withCrcReg_out (s : State) (v : Word16) : (s.withCrcReg v).out = s.out := rfl
@[simp] theorem State.withCrcReg_withCrcReg (s : State) (v w : Word16) : (s.withCrcReg v).withCrcReg w = s.withCrcReg w := rfl
@[simp] theorem State.withCrcReg_self (s : State) : s.withCrcReg s.crcReg = s := rfl

@[simp] theorem State.withAct_cfg (s : State) (v : Activity) : (s.withAct v).cfg = s.cfg := rfl
@[simp] theorem State.withAct_st (s : State) (v : Activity) : (s.withAct v).st = s.st := rfl
@[simp] theorem State.withAct_len (s : State) (v : Activity) : (s.withAct v).len = s.len := rfl
@[simp] theorem State.withAct_buf (s : State) (v : Activity) : (s.withAct v).buf = s.buf := rfl
@[simp] theorem State.withAct_err (s : State) (v : Activity) : (s.withAct v).err = s.err := rfl
@[simp] theorem State.withAct_rts (s : State) (v : Activity) : (s.withAct v).rts = s.rts := rfl
@[simp] theorem State.withAct_record (s : State) (v : Activity) : (s.withAct v).record = s.record := rfl
@[simp] theorem State.withAct_crcReg (s : State) (v : Activity) : (s.withAct v).crcReg = s.crcReg := rfl
@[simp] theorem State.withAct_act (s : State) (v : Activity) : (s.withAct v).act = v := rfl
@[simp] theorem State.withAct_q (s : State) (v : Activity) : (s.withAct v).q = s.q := rfl
@[simp] theorem State.withAct_inbox (s : State) (v : Activity) : (s.withAct v).inbox = s.inbox := rfl
@[simp] theorem State.withAct_out (s : State) (v : Activity) : (s.withAct v).out = s.out := rfl
@[simp] theorem State.withAct_withAct (s : State) (v w : Activity) : (s.withAct v).withAct w = s.withAct w := rfl
@[simp] theorem State.withAct_self (s : State) : s.withAct s.act = s := rfl

@[simp] theorem State.withQ_cfg (s : State) (v : List Byte) : (s.withQ v).cfg = s.cfg := rfl
@[simp] theorem State.withQ_st (s : State) (v : List Byte) : (s.withQ v).st = s.st := rfl
@[simp] theorem State.withQ_len (s : State) (v : List Byte) : (s.withQ v).len = s.len := rfl
@[simp] theorem State.withQ_buf (s : State) (v : List Byte) : (s.withQ v).buf = s.buf := rfl
@[simp] theorem State.withQ_err (s : State) (v : List Byte) : (s.withQ v).err = s.err := rfl
@[simp] theorem State.withQ_rts (s : State) (v : List Byte) : (s.withQ v).rts = s.rts := rfl
@[simp] theorem State.withQ_record (s : State) (v : List Byte) : (s.withQ v).record = s.record := rfl
@[simp] theorem State.withQ_crcReg (s : State) (v : List Byte) : (s.withQ v).crcReg = s.crcReg := rfl
@[simp] theorem State.withQ_act (s : State) (v : List Byte) : (s.withQ v).act = s.act := rfl
@[simp] theorem State.withQ_q (s : State) (v : List Byte) : (s.withQ v).q = v := rfl
@[simp] theorem State.withQ_inbox (s : State) (v : List Byte) : (s.withQ v).inbox = s.inbox := rfl
@[simp] theorem State.withQ_out (s : State) (v : List Byte) : (s.withQ v).out = s.out := rfl
@[simp] theorem State.withQ_withQ (s : State) (v w : List Byte) : (s.withQ v).withQ w = s.withQ w := rfl
@[simp] theorem State.withQ_self (s : State) : s.withQ s.q = s := rfl

@[simp] theorem State.withInbox_cfg (s : State) (v : List Input) : (s.withInbox v).cfg = s.cfg := rfl
@[simp] theorem State.withInbox_st (s : State) (v : List Input) : (s.withInbox v).st = s.st := rfl
@[simp] theorem State.withInbox_len (s : State) (v : List Input) : (s.withInbox v).len = s.len := rfl
@[simp] theorem State.withInbox_buf (s : State) (v : List Input) : (s.withInbox v).buf = s.buf := rfl
@[simp] theorem State.withInbox_err (s : State) (v : List Input) : (s.withInbox v).err = s.err := rfl
@[simp] theorem State.withInbox_rts (s : State) (v : List Input) : (s.withInbox v).rts = s.rts := rfl
@[simp] theorem State.withInbox_record (s : State) (v : List Input) : (s.withInbox v).record = s.record := rfl
@[simp] theorem State.withInbox_crcReg (s : State) (v : List Input) : (s.withInbox v).crcReg = s.crcReg := rfl
@[simp] theorem State.withInbox_act (s : State) (v : List Input) : (s.withInbox v).act = s.act := rfl
@[simp] theorem State.withInbox_q (s : State) (v : List Input) : (s.withInbox v).q = s.q := rfl
@[simp] theorem State.withInbox_inbox (s : State) (v : List Input) : (s.withInbox v).inbox = v := rfl
@[simp] theorem State.withInbox_out (s : State) (v : List Input) : (s.withInbox v).out = s.out := rfl
@[simp] theorem State.withInbox_withInbox (s : State) (v w : List Input) : (s.withInbox v).withInbox w = s.withInbox w := rfl
@[simp] theorem State.withInbox_self (s : State) : s.withInbox s.inbox = s := rfl

@[simp] theorem State.withOut_cfg (s : State) (v : ReadValue) : (s.withOut v).cfg = s.cfg := rfl
@[simp] theorem State.withOut_st (s : State) (v : ReadValue) : (s.withOut v).st = s.st := rfl
@[simp] theorem State.withOut_len (s : State) (v : ReadValue) : (s.withOut v).len = s.len := rfl
@[simp] theorem State.withOut_buf (s : State) (v : ReadValue) : (s.withOut v).buf = s.buf := rfl
@[simp] theorem State.withOut_err (s : State) (v : ReadValue) : (s.withOut v).err = s.err := rfl
@[simp] theorem State.withOut_rts (s : State) (v : ReadValue) : (s.withOut v).rts = s.rts := rfl
@[simp] theorem State.withOut_record (s : State) (v : ReadValue) : (s.withOut v).record = s.record := rfl
@[simp] theorem State.withOut_crcReg (s : State) (v : ReadValue) : (s.withOut v).crcReg = s.crcReg := rfl
@[simp] theorem State.withOut_act (s : State) (v : ReadValue) : (s.withOut v).act = s.act := rfl
@[simp] theorem State.withOut_q (s : State) (v : ReadValue) : (s.withOut v).q = s.q := rfl
@[simp] theorem State.withOut_inbox (s : State) (v : ReadValue) : (s.withOut v).inbox = s.inbox := rfl
@[simp] theorem State.withOut_out (s : State) (v : ReadValue) : (s.withOut v).out = v := rfl
@[simp] theorem State.withOut_withOut (s : State) (v w : ReadValue) : (s.withOut v).withOut w = s.withOut w := rfl
@[simp] theorem State.withOut_self (s : State) : s.withOut s.out = s := rfl

/-! ## Updates of the record -/

@[simp] theorem Record.withHdr_hdr (r : Record) (v : List Byte) : (r.withHdr v).hdr = v := rfl
@[simp] theorem Record.withHdr_ts (r : Record) (v : List Byte) : (r.withHdr v).ts = r.ts := rfl
@[simp] theorem Record.withHdr_equipId (r : Record) (v : List Byte) : (r.withHdr v).equipId = r.equipId := rfl
@[simp] theorem Record.withHdr_msg (r : Record) (v : List Byte) : (r.withHdr v).msg = r.msg := rfl
@[simp] theorem Record.withHdr_devN (r : Record) (v : List Byte) : (r.withHdr v).devN = r.devN := rfl
@[simp] theorem Record.withHdr_pflogN (r : Record) (v : List Byte) : (r.withHdr v).pflogN = r.pflogN := rfl
@[simp] theorem Record.withHdr_pflog (r : Record) (v : List Byte) : (r.withHdr v).pflog = r.pflog := rfl
@[simp] theorem Record.withHdr_dev (r : Record) (v : List Byte) : (r.withHdr v).dev = r.dev := rfl
@[simp] theorem Record.withHdr_crcTx (r : Record) (v : List Byte) : (r.withHdr v).crcTx = r.crcTx := rfl
@[simp] theorem Record.withHdr_crcCalc (r : Record) (v : List Byte) : (r.withHdr v).crcCalc = r.crcCalc := rfl
@[simp] theorem Record.withHdr_crcValid (r : Record) (v : List Byte) : (r.withHdr v).crcValid = r.crcValid := rfl
@[simp] theorem Record.withHdr_getNum (r : Record) (v : List Byte) (d : NumDest) :
    (r.withHdr v).getNum d = r.getNum d := by cases d <;> rfl

@[simp] theorem Record.withTs_hdr (r : Record) (v : List Byte) : (r.withTs v).hdr = r.hdr := rfl
@[simp] theorem Record.withTs_ts (r : Record) (v : List Byte) : (r.withTs v).ts = v := rfl
@[simp] theorem Record.withTs_equipId (r : Record) (v : List Byte) : (r.withTs v).equipId = r.equipId := rfl
@[simp] theorem Record.withTs_msg (r : Record) (v : List Byte) : (r.withTs v).msg = r.msg := rfl
@[simp] theorem Record.withTs_devN (r : Record) (v : List Byte) : (r.withTs v).devN = r.devN := rfl
@[simp] theorem Record.withTs_pflogN (r : Record) (v : List Byte) : (r.withTs v).pflogN = r.pflogN := rfl
@[simp] theorem Record.withTs_pflog (r : Record) (v : List Byte) : (r.withTs v).pflog = r.pflog := rfl
@[simp] theorem Record.withTs_dev (r : Record) (v : List Byte) : (r.withTs v).dev = r.dev := rfl
@[simp] theorem Record.withTs_crcTx (r : Record) (v : List Byte) : (r.withTs v).crcTx = r.crcTx := rfl
@[simp] theorem Record.withTs_crcCalc (r : Record) (v : List Byte) : (r.withTs v).crcCalc = r.crcCalc := rfl
@[simp] theorem Record.withTs_crcValid (r : Record) (v : List Byte) : (r.withTs v).crcValid = r.crcValid := rfl
@[simp] theorem Record.withTs_getNum (r : Record) (v : List Byte) (d : NumDest) :
    (r.withTs v).getNum d = r.getNum d := by cases d <;> rfl

@[simp] theorem Record.withEquipId_hdr (r : Record) (v : List Byte) : (r.withEquipId v).hdr = r.hdr := rfl
@[simp] theorem Record.withEquipId_ts (r : Record) (v : List Byte) : (r.withEquipId v).ts = r.ts := rfl
@[simp] theorem Record.withEquipId_equipId (r : Record) (v : List Byte) : (r.withEquipId v).equipId = v := rfl
@[simp] theorem Record.withEquipId_msg (r : Record) (v : List Byte) : (r.withEquipId v).msg = r.msg := rfl
@[simp] theorem Record.withEquipId_devN (r : Record) (v : List Byte) : (r.withEquipId v).devN = r.devN := rfl
@[simp] theorem Record.withEquipId_pflogN (r : Record) (v : List Byte) : (r.withEquipId v).pflogN = r.pflogN := rfl
@[simp] theorem Record.withEquipId_pflog (r : Record) (v : List Byte) : (r.withEquipId v).pflog = r.pflog := rfl
@[simp] theorem Record.withEquipId_dev (r : Record) (v : List Byte) : (r.withEquipId v).dev = r.dev := rfl
@[simp] theorem Record.withEquipId_crcTx (r : Record) (v : List Byte) : (r.withEquipId v).crcTx = r.crcTx := rfl
@[simp] theorem Record.withEquipId_crcCalc (r : Record) (v : List Byte) : (r.withEquipId v).crcCalc = r.crcCalc := rfl
@[simp] theorem Record.withEquipId_crcValid (r : Record) (v : List Byte) : (r.withEquipId v).crcValid = r.crcValid := rfl
@[simp] theorem Record.withEquipId_getNum (r : Record) (v : List Byte) (d : NumDest) :
    (r.withEquipId v).getNum d = r.getNum d := by cases d <;> rfl

@[simp] theorem Record.withMsg_hdr (r : Record) (v : List Byte) : (r.withMsg v).hdr = r.hdr := rfl
@[simp] theorem Record.withMsg_ts (r : Record) (v : List Byte) : (r.withMsg v).ts = r.ts := rfl
@[simp] theorem Record.withMsg_equipId (r : Record) (v : List Byte) : (r.withMsg v).equipId = r.equipId := rfl
@[simp] theorem Record.withMsg_msg (r : Record) (v : List Byte) : (r.withMsg v).msg = v := rfl
@[simp] theorem Record.withMsg_devN (r : Record) (v : List Byte) : (r.withMsg v).devN = r.devN := rfl
@[simp] theorem Record.withMsg_pflogN (r : Record) (v : List Byte) : (r.withMsg v).pflogN = r.pflogN := rfl
@[simp] theorem Record.withMsg_pflog (r : Record) (v : List Byte) : (r.withMsg v).pflog = r.pflog := rfl
@[simp] theorem Record.withMsg_dev (r : Record) (v : List Byte) : (r.withMsg v).dev = r.dev := rfl
@[simp] theorem Record.withMsg_crcTx (r : Record) (v : List Byte) : (r.withMsg v).crcTx = r.crcTx := rfl
@[simp] theorem Record.withMsg_crcCalc (r : Record) (v : List Byte) : (r.withMsg v).crcCalc = r.crcCalc := rfl
@[simp] theorem Record.withMsg_crcValid (r : Record) (v : List Byte) : (r.withMsg v).crcValid = r.crcValid := rfl
@[simp] theorem Record.withMsg_getNum (r : Record) (v : List Byte) (d : NumDest) :
    (r.withMsg v).getNum d = r.getNum d := by cases d <;> rfl

@[simp] theorem Record.withDevN_hdr (r : Record) (v : Nat) : (r.withDevN v).hdr = r.hdr := rfl
@[simp] theorem Record.withDevN_ts (r : Record) (v : Nat) : (r.withDevN v).ts = r.ts := rfl
@[simp] theorem Record.withDevN_equipId (r : Record) (v : Nat) : (r.withDevN v).equipId = r.equipId := rfl
@[simp] theorem Record.withDevN_msg (r : Record) (v : Nat) : (r.withDevN v).msg = r.msg := rfl
@[simp] theorem Record.withDevN_devN (r : Record) (v : Nat) : (r.withDevN v).devN = v := rfl
@[simp] theorem Record.withDevN_pflogN (r : Record) (v : Nat) : (r.withDevN v).pflogN = r.pflogN := rfl
@[simp] theorem Record.withDevN_pflog (r : Record) (v : Nat) : (r.withDevN v).pflog = r.pflog := rfl
@[simp] theorem Record.withDevN_dev (r : Record) (v : Nat) : (r.withDevN v).dev = r.dev := rfl
@[simp] theorem Record.withDevN_crcTx (r : Record) (v : Nat) : (r.withDevN v).crcTx = r.crcTx := rfl
@[simp] theorem Record.withDevN_crcCalc (r : Record) (v : Nat) : (r.withDevN v).crcCalc = r.crcCalc := rfl
@[simp] theorem Record.withDevN_crcValid (r : Record) (v : Nat) : (r.withDevN v).crcValid = r.crcValid := rfl
@[simp] theorem Record.withDevN_getNum (r : Record) (v : Nat) (d : NumDest) :
    (r.withDevN v).getNum d = r.getNum d := by cases d <;> rfl

@[simp] theorem Record.withPflogN_hdr (r : Record) (v : Nat) : (r.withPflogN v).hdr = r.hdr := rfl
@[simp] theorem Record.withPflogN_ts (r : Record) (v : Nat) : (r.withPflogN v).ts = r.ts := rfl
@[simp] theorem Record.withPflogN_equipId (r : Record) (v : Nat) : (r.withPflogN v).equipId = r.equipId := rfl
@[simp] theorem Record.withPflogN_msg (r : Record) (v : Nat) : (r.withPflogN v).msg = r.msg := rfl
@[simp] theorem Record.withPflogN_devN (r : Record) (v : Nat) : (r.withPflogN v).devN = r.devN := rfl
@[simp] theorem Record.withPflogN_pflogN (r : Record) (v : Nat) : (r.withPflogN v).pflogN = v := rfl
@[simp] theorem Record.withPflogN_pflog (r : Record) (v : Nat) : (r.withPflogN v).pflog = r.pflog := rfl
@[simp] theorem Record.withPflogN_dev (r : Record) (v : Nat) : (r.withPflogN v).dev = r.dev := rfl
@[simp] theorem Record.withPflogN_crcTx (r : Record) (v : Nat) : (r.withPflogN v).crcTx = r.crcTx := rfl
@[simp] theorem Record.withPflogN_crcCalc (r : Record) (v : Nat) : (r.withPflogN v).crcCalc = r.crcCalc := rfl
@[simp] theorem Record.withPflogN_crcValid (r : Record) (v : Nat) : (r.withPflogN v).crcValid = r.crcValid := rfl
@[simp] theorem Record.withPflogN_getNum (r : Record) (v : Nat) (d : NumDest) :
    (r.withPflogN v).getNum d = r.getNum d := by cases d <;> rfl

@[simp] theorem Record.withPflog_hdr (r : Record) (v : List LogEntry) : (r.withPflog v).hdr = r.hdr := rfl
@[simp] theorem Record.withPflog_ts (r : Record) (v : List LogEntry) : (r.withPflog v).ts = r.ts := rfl
@[simp] theorem Record.withPflog_equipId (r : Record) (v : List LogEntry) : (r.withPflog v).equipId = r.equipId := rfl
@[simp] theorem Record.withPflog_msg (r : Record) (v : List LogEntry) : (r.withPflog v).msg = r.msg := rfl
@[simp] theorem Record.withPflog_devN (r : Record) (v : List LogEntry) : (r.withPflog v).devN = r.devN := rfl
@[simp] theorem Record.withPflog_pflogN (r : Record) (v : List LogEntry) : (r.withPflog v).pflogN = r.pflogN := rfl
@[simp] theorem Record.withPflog_pflog (r : Record) (v : List LogEntry) : (r.withPflog v).pflog = v := rfl
@[simp] theorem Record.withPflog_dev (r : Record) (v : List LogEntry) : (r.withPflog v).dev = r.dev := rfl
@[simp] theorem Record.withPflog_crcTx (r : Record) (v : List LogEntry) : (r.withPflog v).crcTx = r.crcTx := rfl
@[simp] theorem Record.withPflog_crcCalc (r : Record) (v : List LogEntry) : (r.withPflog v).crcCalc = r.crcCalc := rfl
@[simp] theorem Record.withPflog_crcValid (r : Record) (v : List LogEntry) : (r.withPflog v).crcValid = r.crcValid := rfl
@[simp] theorem Record.withPflog_getNum (r : Record) (v : List LogEntry) (d : NumDest) :
    (r.withPflog v).getNum d = r.getNum d := by cases d <;> rfl

@[simp] theorem Record.withDev_hdr (r : Record) (v : List Device) : (r.withDev v).hdr = r.hdr := rfl
@[simp] theorem Record.withDev_ts (r : Record) (v : List Device) : (r.withDev v).ts = r.ts := rfl
@[simp] theorem Record.withDev_equipId (r : Record) (v : List Device) : (r.withDev v).equipId = r.equipId := rfl
@[simp] theorem Record.withDev_msg (r : Record) (v : List Device) : (r.withDev v).msg = r.msg := rfl
@[simp] theorem Record.withDev_devN (r : Record) (v : List Device) : (r.withDev v).devN = r.devN := rfl
@[simp] theorem Record.withDev_pflogN (r : Record) (v : List Device) : (r.withDev v).pflogN = r.pflogN := rfl
@[simp] theorem Record.withDev_pflog (r : Record) (v : List Device) : (r.withDev v).pflog = r.pflog := rfl
@[simp] theorem Record.withDev_dev (r : Record) (v : List Device) : (r.withDev v).dev = v := rfl
@[simp] theorem Record.withDev_crcTx (r : Record) (v : List Device) : (r.withDev v).crcTx = r.crcTx := rfl
@[simp] theorem Record.withDev_crcCalc (r : Record) (v : List Device) : (r.withDev v).crcCalc = r.crcCalc := rfl
@[simp] theorem Record.withDev_crcValid (r : Record) (v : List Device) : (r.withDev v).crcValid = r.crcValid := rfl
@[simp] theorem Record.withDev_getNum (r : Record) (v : List Device) (d : NumDest) :
    (r.withDev v).getNum d = r.getNum d := by cases d <;> rfl

@[simp] theorem Record.withCrcTx_hdr (r : Record) (v : Word16) : (r.withCrcTx v).hdr = r.hdr := rfl
@[simp] theorem Record.withCrcTx_ts (r : Record) (v : Word16) : (r.withCrcTx v).ts = r.ts := rfl
@[simp] theorem Record.withCrcTx_equipId (r : Record) (v : Word16) : (r.withCrcTx v).equipId = r.equipId := rfl
@[simp] theorem Record.withCrcTx_msg (r : Record) (v : Word16) : (r.withCrcTx v).msg = r.msg := rfl
@[simp] theorem Record.withCrcTx_devN (r : Record) (v : Word16) : (r.withCrcTx v).devN = r.devN := rfl
@[simp] theorem Record.withCrcTx_pflogN (r : Record) (v : Word16) : (r.withCrcTx v).pflogN = r.pflogN := rfl
@[simp] theorem Record.withCrcTx_pflog (r : Record) (v : Word16) : (r.withCrcTx v).pflog = r.pflog := rfl
@[simp] theorem Record.withCrcTx_dev (r : Record) (v : Word16) : (r.withCrcTx v).dev = r.dev := rfl
@[simp] theorem Record.withCrcTx_crcTx (r : Record) (v : Word16) : (r.withCrcTx v).crcTx = v := rfl
@[simp] theorem Record.withCrcTx_crcCalc (r : Record) (v : Word16) : (r.withCrcTx v).crcCalc = r.crcCalc := rfl
@[simp] theorem Record.withCrcTx_crcValid (r : Record) (v : Word16) : (r.withCrcTx v).crcValid = r.crcValid := rfl
@[simp] theorem Record.withCrcTx_getNum (r : Record) (v : Word16) (d : NumDest) :
    (r.withCrcTx v).getNum d = r.getNum d := by cases d <;> rfl

@[simp] theorem Record.withCrcCalc_hdr (r : Record) (v : Word16) : (r.withCrcCalc v).hdr = r.hdr := rfl
@[simp] theorem Record.withCrcCalc_ts (r : Record) (v : Word16) : (r.withCrcCalc v).ts = r.ts := rfl
@[simp] theorem Record.withCrcCalc_equipId (r : Record) (v : Word16) : (r.withCrcCalc v).equipId = r.equipId := rfl
@[simp] theorem Record.withCrcCalc_msg (r : Record) (v : Word16) : (r.withCrcCalc v).msg = r.msg := rfl
@[simp] theorem Record.withCrcCalc_devN (r : Record) (v : Word16) : (r.withCrcCalc v).devN = r.devN := rfl
@[simp] theorem Record.withCrcCalc_pflogN (r : Record) (v : Word16) : (r.withCrcCalc v).pflogN = r.pflogN := rfl
@[simp] theorem Record.withCrcCalc_pflog (r : Record) (v : Word16) : (r.withCrcCalc v).pflog = r.pflog := rfl
@[simp] theorem Record.withCrcCalc_dev (r : Record) (v : Word16) : (r.withCrcCalc v).dev = r.dev := rfl
@[simp] theorem Record.withCrcCalc_crcTx (r : Record) (v : Word16) : (r.withCrcCalc v).crcTx = r.crcTx := rfl
@[simp] theorem Record.withCrcCalc_crcCalc (r : Record) (v : Word16) : (r.withCrcCalc v).crcCalc = v := rfl
@[simp] theorem Record.withCrcCalc_crcValid (r : Record) (v : Word16) : (r.withCrcCalc v).crcValid = r.crcValid := rfl
@[simp] theorem Record.withCrcCalc_getNum (r : Record) (v : Word16) (d : NumDest) :
    (r.withCrcCalc v).getNum d = r.getNum d := by cases d <;> rfl

@[simp] theorem Record.withCrcValid_hdr (r : Record) (v : Bool) : (r.withCrcValid v).hdr = r.hdr := rfl
@[simp] theorem Record.withCrcValid_ts (r : Record) (v : Bool) : (r.withCrcValid v).ts = r.ts := rfl
@[simp] theorem Record.withCrcValid_equipId (r : Record) (v : Bool) : (r.withCrcValid v).equipId = r.equipId := rfl
@[simp] theorem Record.withCrcValid_msg (r : Record) (v : Bool) : (r.withCrcValid v).msg = r.msg := rfl
@[simp] theorem Record.withCrcValid_devN (r : Record) (v : Bool) : (r.withCrcValid v).devN = r.devN := rfl
@[simp] theorem Record.withCrcValid_pflogN (r : Record) (v : Bool) : (r.withCrcValid v).pflogN = r.pflogN := rfl
@[simp] theorem Record.withCrcValid_pflog (r : Record) (v : Bool) : (r.withCrcValid v).pflog = r.pflog := rfl
@[simp] theorem Record.withCrcValid_dev (r : Record) (v : Bool) : (r.withCrcValid v).dev = r.dev := rfl
@[simp] theorem Record.withCrcValid_crcTx (r : Record) (v : Bool) : (r.withCrcValid v).crcTx = r.crcTx := rfl
@[simp] theorem Record.withCrcValid_crcCalc (r : Record) (v : Bool) : (r.withCrcValid v).crcCalc = r.crcCalc := rfl
@[simp] theorem Record.withCrcValid_crcValid (r : Record) (v : Bool) : (r.withCrcValid v).crcValid = v := rfl
@[simp] theorem Record.withCrcValid_getNum (r : Record) (v : Bool) (d : NumDest) :
    (r.withCrcValid v).getNum d = r.getNum d := by cases d <;> rfl

@[simp] theorem Record.setNum_hdr (r : Record) (d : NumDest) (v : Word32) : (r.setNum d v).hdr = r.hdr := by
  cases d <;> rfl
@[simp] theorem Record.setNum_ts (r : Record) (d : NumDest) (v : Word32) : (r.setNum d v).ts = r.ts := by
  cases d <;> rfl
@[simp] theorem Record.setNum_equipId (r : Record) (d : NumDest) (v : Word32) : (r.setNum d v).equipId = r.equipId := by
  cases d <;> rfl
@[simp] theorem Record.setNum_msg (r : Record) (d : NumDest) (v : Word32) : (r.setNum d v).msg = r.msg := by
  cases d <;> rfl
@[simp] theorem Record.setNum_devN (r : Record) (d : NumDest) (v : Word32) : (r.setNum d v).devN = r.devN := by
  cases d <;> rfl
@[simp] theorem Record.setNum_pflogN (r : Record) (d : NumDest) (v : Word32) : (r.setNum d v).pflogN = r.pflogN := by
  cases d <;> rfl
@[simp] theorem Record.setNum_pflog (r : Record) (d : NumDest) (v : Word32) : (r.setNum d v).pflog = r.pflog := by
  cases d <;> rfl
@[simp] theorem Record.setNum_dev (r : Record) (d : NumDest) (v : Word32) : (r.setNum d v).dev = r.dev := by
  cases d <;> rfl
@[simp] theorem Record.setNum_crcTx (r : Record) (d : NumDest) (v : Word32) : (r.setNum d v).crcTx = r.crcTx := by
  cases d <;> rfl
@[simp] theorem Record.setNum_crcCalc (r : Record) (d : NumDest) (v : Word32) : (r.setNum d v).crcCalc = r.crcCalc := by
  cases d <;> rfl
@[simp] theorem Record.setNum_crcValid (r : Record) (d : NumDest) (v : Word32) : (r.setNum d v).crcValid = r.crcValid := by
  cases d <;> rfl

@[simp] theorem Record.getNum_setNum_self (r : Record) (d : NumDest) (v : Word32) : (r.setNum d v).getNum d = v := by
  cases d <;> rfl

theorem Record.getNum_setNum_other (r : Record) {d d' : NumDest} (v : Word32) (h : d' ≠ d) :
    (r.setNum d v).getNum d' = r.getNum d' := by
  cases d <;> cases d' <;> first | rfl | exact absurd rfl h

theorem defaultRecord_getNum (c : Config) (d : NumDest) : (defaultRecord c).getNum d = 0#32 := by cases d <;> rfl

end Sys2Proof.Machine
end

