-- ==== Sys2Proof/Laws/Ops.lean ====
section
/-! SUPPORT. What the shared operations can do: the frame buffer's reads and writes, its canonical form, and the events,
`commit` and `route`. -/

namespace Sys2Proof.Machine

/-! ## Sequencing -/

@[simp] theorem andThen_next (s : State) (k : State → Result) : andThen (.next s) k = k s := rfl
@[simp] theorem andThen_fault (f : Fault) (k : State → Result) : andThen (.fault f) k = .fault f := rfl
@[simp] theorem andThen_refused (e : Refusal) (k : State → Result) : andThen (.refused e) k = .refused e := rfl

/-- A sequence answers a next state exactly when both parts do. -/
theorem andThen_eq_next {r : Result} {k : State → Result} {t : State} :
    andThen r k = .next t ↔ ∃ u, r = .next u ∧ k u = .next t := by
  cases r <;> simp

theorem andThen_assoc (r : Result) (k l : State → Result) :
    andThen (andThen r k) l = andThen r fun s => andThen (k s) l := by
  cases r <;> rfl

/-! ## The frame buffer -/

@[simp] theorem Memory.read_nil (a : Nat) : Memory.read [] a = unlistedByte := rfl

/-- Below its lowest address a canonical memory lists nothing. -/
theorem Memory.read_of_lt : ∀ {m : Memory} {lo a : Nat}, m.wfFrom lo = true → a < lo → m.read a = unlistedByte
  | [], _, _, _, _ => rfl
  | (k, v) :: m, lo, a, h, ha => by
    simp only [Memory.wfFrom, Bool.and_eq_true, decide_eq_true_eq] at h
    rw [Memory.read, if_neg (by omega), Memory.read_of_lt h.2 (by omega)]

/-- A write leaves every other address alone. -/
theorem Memory.read_write_of_ne : ∀ (m : Memory) {a a' : Nat} (b : Byte), a' ≠ a → (m.write a b).read a' = m.read a'
  | [], a, a', b, h => by
    unfold Memory.write
    split
    · rfl
    · simp [Memory.read, Ne.symm h]
  | (k, v) :: m, a, a', b, h => by
    have ih := Memory.read_write_of_ne m b h
    unfold Memory.write
    split
    · split
      · rfl
      · rw [Memory.read, if_neg (Ne.symm h)]
    · split
      · subst k
        split
        · rw [Memory.read, if_neg (Ne.symm h)]
        · rw [Memory.read, if_neg (Ne.symm h), Memory.read, if_neg (Ne.symm h)]
      · rw [Memory.read, Memory.read, ih]

/-- In a canonical memory a read after a write to the same address gives the byte written. -/
theorem Memory.read_write_self : ∀ {m : Memory} {lo : Nat} (a : Nat) (b : Byte), m.wfFrom lo = true →
    (m.write a b).read a = b
  | [], _, a, b, _ => by
    unfold Memory.write
    split
    · rename_i h; simp [h]
    · simp [Memory.read]
  | (k, v) :: m, lo, a, b, h => by
    have h' := h
    simp only [Memory.wfFrom, Bool.and_eq_true, decide_eq_true_eq] at h
    unfold Memory.write
    split
    · rename_i hlt
      split
      · rename_i hb; rw [Memory.read, if_neg (by omega), Memory.read_of_lt h.2 (by omega), hb]
      · simp [Memory.read]
    · split
      · split
        · rename_i hk hb; subst k; rw [Memory.read_of_lt h.2 (by omega), hb]
        · simp [Memory.read]
      · rename_i hne; rw [Memory.read, if_neg (Ne.symm hne)]; exact Memory.read_write_self a b h.2

/-- Where the byte written is not what an unlisted address reads as, the canonical form is not needed at address 0. -/
theorem Memory.read_write_zero (m : Memory) {b : Byte} (hb : b ≠ unlistedByte) : (m.write 0 b).read 0 = b := by
  cases m with
  | nil => simp [Memory.write, hb, Memory.read]
  | cons c m =>
    obtain ⟨k, v⟩ := c
    rcases Nat.eq_zero_or_pos k with rfl | h
    · simp [Memory.write, hb, Memory.read]
    · simp [Memory.write, hb, Memory.read, h]

theorem Memory.wfFrom_mono : ∀ {m : Memory} {lo lo' : Nat}, lo' ≤ lo → m.wfFrom lo = true → m.wfFrom lo' = true
  | [], _, _, _, _ => rfl
  | (k, v) :: m, lo, lo', hle, h => by
    simp only [Memory.wfFrom, Bool.and_eq_true, decide_eq_true_eq] at h ⊢
    exact ⟨⟨by omega, h.1.2⟩, h.2⟩

/-- A write keeps the canonical form. -/
theorem Memory.wfFrom_write : ∀ {m : Memory} {lo a : Nat} (b : Byte), lo ≤ a → m.wfFrom lo = true →
    (m.write a b).wfFrom lo = true
  | [], lo, a, b, hle, _ => by
    unfold Memory.write
    split
    · rfl
    · rename_i hb; simp [Memory.wfFrom, hle, hb]
  | (k, v) :: m, lo, a, b, hle, h => by
    have h' := h
    simp only [Memory.wfFrom, Bool.and_eq_true, decide_eq_true_eq] at h
    obtain ⟨⟨hk, hv⟩, hm⟩ := h
    unfold Memory.write
    split
    · rename_i hlt
      split
      · exact h'
      · rename_i hb
        simp only [Memory.wfFrom, Bool.and_eq_true, decide_eq_true_eq, bne_iff_ne]
        exact ⟨⟨hle, hb⟩, ⟨by omega, by simpa using hv⟩, hm⟩
    · split
      · split
        · exact Memory.wfFrom_mono (by omega) hm
        · rename_i hne hb; subst k
          simp only [Memory.wfFrom, Bool.and_eq_true, decide_eq_true_eq, bne_iff_ne]
          exact ⟨⟨hle, hb⟩, hm⟩
      · simp only [Memory.wfFrom, Bool.and_eq_true, decide_eq_true_eq]
        exact ⟨⟨hk, hv⟩, Memory.wfFrom_write b (by omega) hm⟩

theorem Memory.wf_write {m : Memory} (a : Nat) (b : Byte) (h : m.wf = true) : (m.write a b).wf = true :=
  Memory.wfFrom_write b (Nat.zero_le a) h

theorem Memory.wf_nil : Memory.wf [] = true := rfl

/-- The memory of every reset state has the canonical form. -/
theorem resetWith_memory_wf (c : Config) : (State.resetWith c).buf.wf = true := rfl

@[simp] theorem Memory.length_range : ∀ (m : Memory) (a n : Nat), (m.range a n).length = n
  | _, _, 0 => rfl
  | m, a, n + 1 => by simp [Memory.range, Memory.length_range m (a + 1) n]

theorem Memory.range_add : ∀ (m : Memory) (a n k : Nat), m.range a (n + k) = m.range a n ++ m.range (a + n) k
  | m, a, 0, k => by simp [Memory.range]
  | m, a, n + 1, k => by
    rw [show n + 1 + k = (n + k) + 1 by omega, Memory.range, Memory.range_add m (a + 1) n k, Memory.range,
      show a + 1 + n = a + (n + 1) by omega, List.cons_append]

/-- A range is its bytes. -/
theorem Memory.getElem?_range : ∀ (m : Memory) (a n k : Nat),
    (m.range a n)[k]? = if k < n then some (m.read (a + k)) else none
  | m, a, 0, k => by simp [Memory.range]
  | m, a, n + 1, 0 => by simp [Memory.range]
  | m, a, n + 1, k + 1 => by
    rw [Memory.range, List.getElem?_cons_succ, Memory.getElem?_range m (a + 1) n k,
      show a + 1 + k = a + (k + 1) by omega]
    simp

theorem Memory.range_congr {m m' : Memory} : ∀ {a n : Nat}, (∀ k, a ≤ k → k < a + n → m.read k = m'.read k) →
    m.range a n = m'.range a n
  | _, 0, _ => rfl
  | a, n + 1, h => by
    rw [Memory.range, Memory.range, h a (by omega) (by omega),
      Memory.range_congr fun k h1 h2 => h k (by omega) (by omega)]

@[simp] theorem State.length_frame (s : State) : s.frame.length = s.len := Memory.length_range ..

/-- `MemWrite` writes an existing index, and faults at any other. -/
theorem memWrite_eq_next {a : Nat} {b : Byte} {s t : State} :
    memWrite a b s = .next t ↔ a < s.cfg.cap ∧ t = s.withBuf (s.buf.write a b) := by
  unfold memWrite
  split <;> simp_all [eq_comm]

theorem memWrite_of_lt {a : Nat} (b : Byte) {s : State} (h : a < s.cfg.cap) :
    memWrite a b s = .next (s.withBuf (s.buf.write a b)) := if_pos h

theorem withFrame_of_le {s : State} (k : State → List Byte → Result) (h : s.len ≤ s.cfg.cap) :
    withFrame s (k s) = k s s.frame := if_pos h

theorem withFrame_eq_next {s t : State} {k : List Byte → Result} :
    withFrame s k = .next t ↔ s.len ≤ s.cfg.cap ∧ k s.frame = .next t := by
  unfold withFrame
  split <;> simp_all

/-! ## Registers of the record -/

@[simp] theorem Record.getNum_setNum (r : Record) (d : NumDest) (v : Word32) : (r.setNum d v).getNum d = v := by
  cases d <;> rfl

/-! No update of another register touches a numeric field. -/

@[simp] theorem Record.getNum_withHdr (r : Record) (v : List Byte) (d : NumDest) : (r.withHdr v).getNum d = r.getNum d := by
  cases d <;> rfl

@[simp] theorem Record.getNum_withTs (r : Record) (v : List Byte) (d : NumDest) : (r.withTs v).getNum d = r.getNum d := by
  cases d <;> rfl

@[simp] theorem Record.getNum_withEquipId (r : Record) (v : List Byte) (d : NumDest) : (r.withEquipId v).getNum d = r.getNum d := by
  cases d <;> rfl

@[simp] theorem Record.getNum_withMsg (r : Record) (v : List Byte) (d : NumDest) : (r.withMsg v).getNum d = r.getNum d := by
  cases d <;> rfl

@[simp] theorem Record.getNum_withDevN (r : Record) (v : Nat) (d : NumDest) : (r.withDevN v).getNum d = r.getNum d := by
  cases d <;> rfl

@[simp] theorem Record.getNum_withPflogN (r : Record) (v : Nat) (d : NumDest) : (r.withPflogN v).getNum d = r.getNum d := by
  cases d <;> rfl

@[simp] theorem Record.getNum_withPflog (r : Record) (v : List LogEntry) (d : NumDest) : (r.withPflog v).getNum d = r.getNum d := by
  cases d <;> rfl

@[simp] theorem Record.getNum_withDev (r : Record) (v : List Device) (d : NumDest) : (r.withDev v).getNum d = r.getNum d := by
  cases d <;> rfl

@[simp] theorem Record.getNum_withCrcTx (r : Record) (v : Word16) (d : NumDest) : (r.withCrcTx v).getNum d = r.getNum d := by
  cases d <;> rfl

@[simp] theorem Record.getNum_withCrcCalc (r : Record) (v : Word16) (d : NumDest) : (r.withCrcCalc v).getNum d = r.getNum d := by
  cases d <;> rfl

@[simp] theorem Record.getNum_withCrcValid (r : Record) (v : Bool) (d : NumDest) : (r.withCrcValid v).getNum d = r.getNum d := by
  cases d <;> rfl

/-! ## Events -/

@[simp] theorem raise_skip (s : State) : raise .skip s = s := rfl
@[simp] theorem raise_drop (s : State) : raise .drop s = s := rfl
@[simp] theorem raise_unrecognisedTag (s : State) : raise .unrecognisedTag s = s := rfl

/-- An event leaves the configuration, the storage, `RTS`, the checksum register and the environment alone
(60_exceptions.md R291). -/
theorem raise_frame (e : Event) (s : State) :
    (raise e s).cfg = s.cfg ∧ (raise e s).buf = s.buf ∧ (raise e s).rts = s.rts ∧ (raise e s).crcReg = s.crcReg ∧
      (raise e s).act = s.act ∧ (raise e s).q = s.q ∧ (raise e s).inbox = s.inbox ∧ (raise e s).out = s.out := by
  cases e <;> simp [raise]

@[simp] theorem commit_some {α : Type} (a : α) (w : α → Record → Record) (s : State) :
    commit (some a) w s = s.withRecord (w a s.record) := rfl

@[simp] theorem commit_none {α : Type} (w : α → Record → Record) (s : State) : commit none w s = s := rfl

/-- A commit writes the record or nothing. -/
theorem commit_cases {α : Type} (v : Option α) (w : α → Record → Record) (s : State) :
    (v = none ∧ commit v w s = s) ∨ ∃ a, v = some a ∧ commit v w s = s.withRecord (w a s.record) := by
  cases v <;> simp

theorem route_of_out {n : Nat} {s : State} (k : Nat → State → State) (h : n = 0 ∨ s.cfg.nsub < n) :
    route n k s = s := if_pos h

theorem route_of_in {n : Nat} {s : State} (k : Nat → State → State) (h1 : 1 ≤ n) (h2 : n ≤ s.cfg.nsub) :
    route n k s = k (n - 1) s := if_neg (by omega)

/-- A routed row drops its line or acts on slot `n - 1`. -/
theorem route_cases (n : Nat) (k : Nat → State → State) (s : State) :
    ((n = 0 ∨ s.cfg.nsub < n) ∧ route n k s = s) ∨ (1 ≤ n ∧ n ≤ s.cfg.nsub ∧ route n k s = k (n - 1) s) := by
  rcases Nat.lt_or_ge s.cfg.nsub n with h | h
  · exact .inl ⟨.inr h, route_of_out k (.inr h)⟩
  · rcases Nat.eq_zero_or_pos n with h0 | h0
    · exact .inl ⟨.inl h0, route_of_out k (.inl h0)⟩
    · exact .inr ⟨h0, h, route_of_in k h0 h⟩

end Sys2Proof.Machine
end

