-- ==== Sys2Proof/Laws/Operands.lean ====
section
/-! SUPPORT. What the searches and the extraction primitives answer on text of a known shape. -/

namespace Sys2Proof.Machine

/-! ## Searches -/

theorem after_append {c : Byte} : ∀ {pre : List Byte} (p : List Byte), c ∉ pre → after c (pre ++ c :: p) = some p
  | [], p, _ => by simp [after]
  | b :: pre, p, h => by
    rw [List.mem_cons, not_or] at h
    rw [List.cons_append, after, if_neg (Ne.symm h.1), after_append p h.2]

theorem after_eq_none {c : Byte} : ∀ {g : List Byte}, after c g = none ↔ c ∉ g
  | [] => by simp [after]
  | b :: g => by
    by_cases h : b = c
    · simp [after, h]
    · simp [after, h, Ne.symm h, after_eq_none (g := g)]

theorem afterLast_append {c : Byte} {p : List Byte} (hp : c ∉ p) : ∀ pre : List Byte, afterLast c (pre ++ c :: p) = some p
  | [] => by
    have : afterLast c p = none := by
      induction p with
      | nil => rfl
      | cons b p ih =>
        rw [List.mem_cons, not_or] at hp
        rw [afterLast, ih hp.2, if_neg (Ne.symm hp.1)]
    simp [afterLast, this]
  | b :: pre => by rw [List.cons_append, afterLast, afterLast_append hp pre]

theorem afterLast_eq_none {c : Byte} : ∀ {g : List Byte}, c ∉ g → afterLast c g = none
  | [], _ => rfl
  | b :: g, h => by
    rw [List.mem_cons, not_or] at h
    rw [afterLast, afterLast_eq_none h.2, if_neg (Ne.symm h.1)]

theorem before_append {c : Byte} {pre : List Byte} (p : List Byte) (h : c ∉ pre) : before c (pre ++ c :: p) = pre := by
  induction pre with
  | nil => simp [before]
  | cons b pre ih =>
    rw [List.mem_cons, not_or] at h
    simp [before, Ne.symm h.1] at ih ⊢
    exact ih h.2

theorem upFrom_append {c : Byte} {pre : List Byte} (p : List Byte) (h : c ∉ pre) :
    upFrom c (pre ++ c :: p) = c :: p := by
  induction pre with
  | nil => simp [upFrom]
  | cons b pre ih =>
    rw [List.mem_cons, not_or] at h
    simp [upFrom, Ne.symm h.1] at ih ⊢
    exact ih h.2

theorem before_eq_self {c : Byte} {l : List Byte} (h : c ∉ l) : before c l = l := by
  rw [before, List.takeWhile_eq_self_iff]
  intro b hb
  rw [bne_iff_ne]
  rintro rfl
  exact h hb

theorem before_append_upFrom (c : Byte) (l : List Byte) : before c l ++ upFrom c l = l :=
  List.takeWhile_append_dropWhile ..

theorem not_mem_before (c : Byte) (l : List Byte) : c ∉ before c l := fun h => by
  simpa using List.mem_takeWhile_imp h

/-! ## Digit runs -/

theorem digits_append {ds tail : List Byte} (hd : AllDigits ds) (ht : RunEnds tail) : digits (ds ++ tail) = ds := by
  induction ds with
  | nil => cases tail with
    | nil => rfl
    | cons b tail => simp [digits, ht b rfl]
  | cons b ds ih =>
    have hb := hd b (by simp)
    have := ih fun x hx => hd x (by simp [hx])
    simp only [digits] at this
    simp [digits, hb, this]

theorem pastDigits_append {ds tail : List Byte} (hd : AllDigits ds) (ht : RunEnds tail) :
    pastDigits (ds ++ tail) = tail := by
  have := List.takeWhile_append_dropWhile (p := isDigit) (l := ds ++ tail)
  rw [show (ds ++ tail).takeWhile isDigit = ds from digits_append hd ht] at this
  exact List.append_cancel_left this

theorem AllDigits.all {ds : List Byte} (h : AllDigits ds) : ds.all isDigit = true := by
  rw [List.all_eq_true]; exact h

theorem runEnds_cons {b : Byte} (l : List Byte) (h : isDigit b = false) : RunEnds (b :: l) := by
  rintro c ⟨⟩; exact h

theorem runEnds_nil : RunEnds [] := by rintro c ⟨⟩

/-! ## Extraction primitives -/

theorem xNum_of_not_mem {g : List Byte} (h : openParen ∉ g) (r : NumRule) : xNum r g = none := by
  have := after_eq_none.mpr h
  cases r <;> simp [xNum, xInt, xFix, this]

theorem xInt_text {pre ds tail : List Byte} (hp : openParen ∉ pre) (hd : AllDigits ds) (ht : RunEnds tail) :
    xInt (pre ++ openParen :: (ds ++ tail)) = if ds = [] then none else word32 (dec ds) := by
  rw [xInt, after_append _ hp]
  simp only [digits_append hd ht]

theorem xFix_text {pre : List Byte} (p : List Byte) (hp : openParen ∉ pre) (w f : Nat) :
    xFix w f (pre ++ openParen :: p) = xFixAt w f p := by
  rw [xFix, after_append _ hp]

theorem xFixAt_text {ws fs : List Byte} (tail : List Byte) (hw : AllDigits ws) (hf : AllDigits fs) (hne : fs ≠ []) :
    xFixAt ws.length fs.length (ws ++ fullStop :: (fs ++ tail)) = word32 (dec (ws ++ fs)) := by
  have h0 : fs.length ≠ 0 := by simpa using hne
  have hd : (ws ++ fullStop :: (fs ++ tail)).drop (ws.length + 1) = fs ++ tail := by
    rw [← List.drop_drop, List.drop_left]; rfl
  rw [xFixAt, if_neg h0, hd, List.take_left, List.take_left, if_pos]
  exact ⟨by simp; omega, by simp, hw.all, hf.all⟩

theorem xFixAt_zero_text {ws : List Byte} (tail : List Byte) (hw : AllDigits ws) :
    xFixAt ws.length 0 (ws ++ tail) = word32 (dec ws) := by
  rw [xFixAt, if_pos rfl, List.take_left, if_pos ⟨by simp, hw.all⟩]

theorem xStr_text {pre : List Byte} (m : Nat) (text : List Byte) (x y : Byte) (hp : openParen ∉ pre) :
    xStr m (pre ++ openParen :: (text ++ [x, y])) = some (text.take m) := by
  rw [xStr, after_append _ hp]
  simp [truncate]

/-- What a row that stores a string writes never exceeds the register. -/
theorem xStr_length {m : Nat} {g t : List Byte} (h : xStr m g = some t) : t.length ≤ m := by
  unfold xStr at h
  split at h
  · cases h
  · split at h
    · cases h; simp [truncate]
    · cases h

theorem xTsAt_length {p t : List Byte} (h : xTsAt p = some t) : t.length = stampLength := by
  unfold xTsAt at h
  split at h
  · cases h; simp; omega
  · cases h

theorem xTs_length {g t : List Byte} (h : xTs g = some t) : t.length = stampLength := by
  unfold xTs at h
  split at h
  · cases h
  · exact xTsAt_length h

/-- The entries found are at most `k`, and each holds a stamp of 13 bytes. -/
theorem xEntries_wf : ∀ (k : Nat) (cur : List Byte),
    (xEntries k cur).length ≤ k ∧ ∀ e ∈ xEntries k cur, e.ts.length = stampLength
  | 0, _ => by simp [xEntries]
  | k + 1, cur => by
    rw [xEntries]
    split
    · simp
    · rename_i e cur' h
      obtain ⟨h1, h2⟩ := xEntries_wf k cur'
      refine ⟨by simpa using h1, fun e' he' => ?_⟩
      rcases List.mem_cons.mp he' with rfl | he'
      · unfold xEntry at h
        split at h
        · cases h
        · split at h
          · rename_i ts b hts hb
            obtain ⟨m, -, hm⟩ := Option.map_eq_some_iff.mp h
            have := congrArg (fun x => x.1.ts) hm
            simp only at this
            rw [← this]; exact xTsAt_length hts
          · cases h
      · exact h2 e' he'

theorem xPflog_wf {skip npf : Nat} {g : List Byte} {es : List LogEntry} (h : xPflog skip npf g = some es) :
    es.length ≤ npf ∧ ∀ e ∈ es, e.ts.length = stampLength := by
  unfold xPflog at h
  split at h
  · cases h
  · rename_i p _
    split at h
    · cases h
    · obtain ⟨cur, -, rfl⟩ := Option.map_eq_some_iff.mp h
      have := xEntries_wf (min (dec (digits p)) npf) cur
      exact ⟨by omega, this.2⟩

theorem xReading_wf {w f m : Nat} {g : List Byte} {ts : List Byte} {v : Word32} {u : List Byte}
    (h : xReading w f m g = some (ts, v, u)) : ts.length = stampLength ∧ u.length ≤ m := by
  unfold xReading at h
  split at h
  · cases h
  · split at h
    · rename_i hts _
      split at h
      · cases h
        exact ⟨xTsAt_length hts, by simp [truncate]⟩
      · cases h
    · cases h

/-! ## The frame -/

theorem bodyOf_append {body : List Byte} (tr : List Byte) (h : endMarker ∉ body) :
    bodyOf (body ++ endMarker :: tr) = body := before_append tr h

theorem trailerOf_append {body : List Byte} (tr : List Byte) (h : endMarker ∉ body) :
    trailerOf (body ++ endMarker :: tr) = endMarker :: tr := upFrom_append tr h

theorem checkedRange_append {body : List Byte} (tr : List Byte) (h : endMarker ∉ body) :
    checkedRange (body ++ endMarker :: tr) = body ++ [endMarker] := by
  simp [checkedRange, bodyOf_append tr h, trailerOf_append tr h]

/-- The first line of a frame, and the rest. -/
theorem splitLines_eq_cons : ∀ {frame : List Byte}, frame ≠ [] →
    splitLines frame = before lineFeed frame :: splitLines ((upFrom lineFeed frame).drop 1)
  | b :: bs, _ => by
    by_cases hb : b = lineFeed
    · subst hb; simp [splitLines, before, upFrom]
    · rw [splitLines, if_neg hb]
      cases bs with
      | nil => simp [splitLines, before, upFrom, hb]
      | cons c cs =>
        rw [splitLines_eq_cons (frame := c :: cs) (by simp)]
        simp [before, upFrom, hb]

theorem not_mem_of_mem_splitLines : ∀ {frame l : List Byte}, l ∈ splitLines frame → lineFeed ∉ l
  | [], l, h => by simp [splitLines] at h
  | b :: bs, l, h => by
    rw [splitLines] at h
    split at h
    · rcases List.mem_cons.mp h with rfl | h
      · simp
      · exact not_mem_of_mem_splitLines h
    · rename_i hb
      split at h
      · rw [List.mem_singleton] at h; subst h; simpa using Ne.symm hb
      · rename_i l' ls hs
        rcases List.mem_cons.mp h with rfl | h
        · have : l' ∈ splitLines bs := by rw [hs]; simp
          have := not_mem_of_mem_splitLines this
          simp [Ne.symm hb, this]
        · exact not_mem_of_mem_splitLines (by rw [hs]; simp [h])

end Sys2Proof.Machine
end

