-- ==== Sys2Proof/Laws/Exec.lean ====
section
/-! SUPPORT. What the shared operations of the assembler and of the parser can do, and that what `step` runs is what the
atomic operations run. -/

namespace Sys2Proof.Machine

/-! ## Lines -/

/-- Every action of the table is dispatched to a line instruction. -/
theorem toInstr_isLine (a : RowAction) (n : Nat) (g : List Byte) : (a.toInstr n g).port = .line := by
  cases a with
  | num d r => cases d <;> rfl
  | _ => rfl

/-- The line decoder yields line instructions only. -/
theorem decodeLine_isLine (table : List TagRow) (line : List Byte) : (decodeLine table line).port = .line := by
  unfold decodeLine
  split
  · exact toInstr_isLine ..
  · rfl

/-- The parser and the step run the same meaning for a line. -/
theorem runLine_eq_exec {i : Instr} (h : i.port = .line ∨ i.port = .line0) (s : State) : runLine i s = exec i s := by
  cases i <;> first | rfl | simp [Instr.port] at h

/-- A numeric row writes its field, or nothing. -/
theorem storeNumber_cases (d : NumDest) (r : NumRule) (g : List Byte) (s : State) :
    (xNum r g = none ∧ storeNumber d r g s = s) ∨
      ∃ v, xNum r g = some v ∧ storeNumber d r g s = s.withRecord (s.record.setNum d v) := by
  unfold storeNumber
  cases xNum r g <;> simp

/-- The row of a numeric field. -/
theorem exec_toInstr (d : NumDest) (r : NumRule) (g : List Byte) (s : State) :
    exec (d.toInstr r g) s = .next (storeNumber d r g s) := by
  cases d <;> rfl

/-- A walk over a list of lines in two parts. -/
theorem walk_append : ∀ (is js : List Instr) (s : State), walk (is ++ js) s = andThen (walk is s) (walk js)
  | [], _, _ => rfl
  | i :: is, js, s => by
    rw [List.cons_append, walk, walk, andThen_assoc]
    congr 1
    exact funext fun t => walk_append is js t

/-- Step 5 of the parse writes `CRCREG`, the three checksum fields and `ERR.SIG`. -/
theorem checkTrailer_cases (frame : List Byte) (c1 c2 c3 c4 : Byte) (s : State) :
    (∃ tx, hex4 c1 c2 c3 c4 = some tx ∧ checkTrailer frame c1 c2 c3 c4 s =
      (s.withCrcReg (crc16 (checkedRange frame))).withRecord
        (((s.record.withCrcCalc (crc16 (checkedRange frame))).withCrcTx tx).withCrcValid
          (decide (crc16 (checkedRange frame) = tx)))) ∨
    (hex4 c1 c2 c3 c4 = none ∧ checkTrailer frame c1 c2 c3 c4 s =
      ((s.withCrcReg (crc16 (checkedRange frame))).withErr { s.err with sig := true }).withRecord
        (((s.record.withCrcCalc (crc16 (checkedRange frame))).withCrcTx 0#16).withCrcValid false)) := by
  unfold checkTrailer
  cases hex4 c1 c2 c3 c4 with
  | none => exact .inr ⟨rfl, rfl⟩
  | some tx =>
    refine .inl ⟨tx, rfl, ?_⟩
    by_cases h : crc16 (checkedRange frame) = tx
    · simp [compareChecksum, h]
    · simp [compareChecksum, h, raise]

/-! ## The assembler -/

/-- Starting a frame stores the marker at index 0, which must exist. -/
theorem startFrame_eq_next {s t : State} :
    startFrame s = .next t ↔ 0 < s.cfg.cap ∧
      t = ((s.withBuf (s.buf.write 0 startMarker)).withLen 1).withSt .assembling := by
  unfold startFrame
  rw [andThen_eq_next]
  constructor
  · rintro ⟨u, h, h'⟩
    obtain ⟨h1, rfl⟩ := memWrite_eq_next.mp h
    cases h'
    exact ⟨h1, rfl⟩
  · rintro ⟨h, rfl⟩
    exact ⟨_, memWrite_eq_next.mpr ⟨h, rfl⟩, rfl⟩

/-- The completion test. -/
theorem completes_iff {s : State} :
    completes s = true ↔ 7 ≤ s.len ∧ s.buf.read (s.len - 7) = endMarker := by
  simp [completes]

/-- Ready is reached with flow control released, where a pin is configured. -/
theorem becomeReady_eq (s : State) :
    becomeReady s = (s.withSt .ready).withRts (if s.cfg.fcEn = true then .hiZ else s.rts) := by
  unfold becomeReady
  by_cases h : s.cfg.fcEn = true
  · simp [h]
  · simp only [h, if_neg, Bool.false_eq_true, not_false_eq_true]
    rfl

/-- The append, where it is enabled. -/
theorem execRxAppend_eq {s : State} (b : Byte) (h1 : s.st = .assembling) (h2 : s.len < s.cfg.cap) :
    execRxAppend b s =
      let s'' := (s.withBuf (s.buf.write s.len b)).withLen (s.len + 1)
      .next (if completes s'' then becomeReady s'' else s'') := by
  rw [execRxAppend, if_pos ⟨h1, h2⟩, memWrite_of_lt b h2]
  rfl

/-- `RX` is the meaning of the case whose condition holds. -/
theorem receive_eq_exec (b : Byte) (s : State) : receive b s = exec (rxInstr b s) s := by
  unfold receive rxInstr
  cases h : s.st with
  | idle => by_cases hb : b = startMarker <;> simp [hb] <;> rfl
  | assembling => by_cases hl : s.len < s.cfg.cap <;> simp [hl] <;> rfl
  | ready => simp [exec, execRxAppend, h]

/-- Storing one byte at an index, with `LEN` one past it: what every storing case of RX does to the buffer. -/
def stored (a : Nat) (b : Byte) (s : State) : State := (s.withBuf (s.buf.write a b)).withLen (a + 1)

/-- Everything one `RX(b)` can do (41_assembler.md R151 to R154). -/
theorem receive_cases {b : Byte} {s t : State} (h : receive b s = .next t) :
    (s.st = .idle ∧ b ≠ startMarker ∧ t = s) ∨
    (s.st = .idle ∧ b = startMarker ∧ 0 < s.cfg.cap ∧ t = (stored 0 startMarker s).withSt .assembling) ∨
    (s.st = .assembling ∧ s.len < s.cfg.cap ∧ completes (stored s.len b s) = false ∧ t = stored s.len b s) ∨
    (s.st = .assembling ∧ s.len < s.cfg.cap ∧ completes (stored s.len b s) = true ∧
      t = becomeReady (stored s.len b s)) ∨
    (s.st = .assembling ∧ s.cfg.cap ≤ s.len ∧ b ≠ startMarker ∧ t = raise .framingOvf s) ∨
    (s.st = .assembling ∧ s.cfg.cap ≤ s.len ∧ b = startMarker ∧ 0 < s.cfg.cap ∧
      t = (stored 0 startMarker (raise .framingOvf s)).withSt .assembling) := by
  unfold receive at h
  cases hs : s.st with
  | idle =>
    rw [hs] at h
    dsimp only at h
    by_cases hb : b = startMarker
    · rw [if_pos hb, execRxIdleStart, if_pos hs] at h
      obtain ⟨hc, rfl⟩ := startFrame_eq_next.mp h
      exact .inr (.inl ⟨rfl, hb, hc, rfl⟩)
    · rw [if_neg hb, execRxIdleOther, if_pos ⟨hs, hb⟩] at h
      cases h
      exact .inl ⟨rfl, hb, rfl⟩
  | assembling =>
    rw [hs] at h
    dsimp only at h
    by_cases hl : s.len < s.cfg.cap
    · rw [if_pos hl, execRxAppend_eq b hs hl] at h
      change Host.Outcome.next (if completes (stored s.len b s) = true then becomeReady (stored s.len b s)
        else stored s.len b s) = _ at h
      cases hc : completes (stored s.len b s) with
      | true => rw [hc, if_pos rfl] at h; cases h; exact .inr (.inr (.inr (.inl ⟨rfl, hl, rfl, rfl⟩)))
      | false =>
        rw [hc, if_neg (by simp)] at h; cases h; exact .inr (.inr (.inl ⟨rfl, hl, rfl, rfl⟩))
    · have hl' := Nat.le_of_not_lt hl
      rw [if_neg hl, execRxOverflow, if_pos ⟨hs, hl'⟩] at h
      by_cases hb : b = startMarker
      · rw [if_pos hb] at h
        obtain ⟨hc, rfl⟩ := startFrame_eq_next.mp h
        exact .inr (.inr (.inr (.inr (.inr ⟨rfl, hl', hb, hc, rfl⟩))))
      · rw [if_neg hb] at h
        cases h
        exact .inr (.inr (.inr (.inr (.inl ⟨rfl, hl', hb, rfl⟩))))
  | ready => rw [hs] at h; cases h

/-- `RX` answers a next state whenever the frame is not Ready and the buffer has a byte. -/
theorem receive_next {s : State} (b : Byte) (h : s.st ≠ .ready) (hc : 0 < s.cfg.cap) : ∃ t, receive b s = .next t := by
  unfold receive
  cases hs : s.st with
  | idle =>
    dsimp only
    by_cases hb : b = startMarker
    · exact ⟨_, by rw [if_pos hb, execRxIdleStart, if_pos hs]; exact startFrame_eq_next.mpr ⟨hc, rfl⟩⟩
    · exact ⟨s, by rw [if_neg hb, execRxIdleOther, if_pos ⟨hs, hb⟩]⟩
  | assembling =>
    dsimp only
    by_cases hl : s.len < s.cfg.cap
    · exact ⟨_, by rw [if_pos hl, execRxAppend_eq b hs hl]⟩
    · have hl' := Nat.le_of_not_lt hl
      by_cases hb : b = startMarker
      · exact ⟨_, by
          rw [if_neg hl, execRxOverflow, if_pos ⟨hs, hl'⟩, if_pos hb]; exact startFrame_eq_next.mpr ⟨hc, rfl⟩⟩
      · exact ⟨_, by rw [if_neg hl, execRxOverflow, if_pos ⟨hs, hl'⟩, if_neg hb]⟩
  | ready => exact absurd hs h

theorem pollLoop_ready {s : State} (q : List Byte) (h : s.st = .ready) : pollLoop q s = .next (s.withQ q) := by
  cases q <;> simp [pollLoop, h]

theorem pollLoop_cons {s : State} (b : Byte) (q : List Byte) (h : s.st ≠ .ready) :
    pollLoop (b :: q) s = andThen (receive b s) (pollLoop q) := by
  simp [pollLoop, h]

/-! ## Steps -/

theorem step_idle {s : State} (h : s.act = .idle) : step s = stepInput s := by simp [step, h]
theorem step_arming {s : State} (h : s.act = .arming) :
    step s = andThen (exec .arm s) fun s' => .next (s'.withAct .receiving) := by simp [step, h]
theorem step_receiving {s : State} (h : s.act = .receiving) : step s = stepReceive s := by simp [step, h]
theorem step_parsing {s : State} {lp j : Nat} (h : s.act = .parsing lp j) : step s = stepParse lp j s := by
  simp [step, h]

/-- Runs compose. -/
theorem run_add (m n : Nat) {s t : State} (h : Host.Core.run core m s = .next t) :
    Host.Core.run core (m + n) s = Host.Core.run core n t := by
  induction m generalizing s with
  | zero => cases h; simp
  | succ m ih =>
    rw [show m + 1 + n = (m + n) + 1 by omega]
    simp only [Host.Core.run] at h ⊢
    split at h
    · exact ih h
    · cases h
    · cases h

/-- A run of one step. -/
theorem run_one {s t : State} (h : step s = .next t) : Host.Core.run core 1 s = .next t := by
  have h' : core.step s = .next t := h
  simp only [Host.Core.run, h']

end Sys2Proof.Machine
end

