-- ==== Sys2Proof/Laws/PerInstr.lean ====
section
/-! SUPPORT. One lemma per instruction: the bytes of a well-formed instruction carry the mark of the port they stand at
(30_encoding.md R101, R103, 45_host.md R259). -/

namespace Sys2Proof.Laws.EncodingPort

/-- The bytes bear the mark of a port: an operation code of the list, the start marker, no line separator, or the end
marker with six bytes behind it. -/
def Marked : Port → List Byte → Prop
  | .host, bytes => ∃ c ops, bytes = c :: ops ∧ 1 ≤ c.toNat ∧ c.toNat ≤ 13
  | .line0, bytes => ∃ g, bytes = startMarker :: g ∧ lineFeed ∉ g
  | .line, bytes => lineFeed ∉ bytes
  | .trailer, bytes => bytes.length = 7 ∧ bytes.head? = some endMarker

/-- Every encoding of the instruction bears the mark of its port. -/
def Statement (i : Instr) : Prop :=
  ∀ table bytes, (∀ r ∈ table, r.shapely = true) → WellFormed table i = true → encode table i = some bytes →
    Marked i.port bytes

theorem lineFeed_not_mem {g : List Byte} (h : isLineText g = true) : lineFeed ∉ g := fun hm => by
  simpa using List.all_eq_true.mp h _ hm

theorem byteFor_ne_lineFeed {p : PatByte} {n : Nat} (hn : n ≤ 9) (hp : (p != .lit 0x0A#8) = true) :
    p.byteFor n ≠ lineFeed := by
  cases p with
  | lit b => simpa [PatByte.byteFor] using hp
  | digit =>
    intro h
    have := congrArg BitVec.toNat h
    simp [PatByte.byteFor] at this
    omega

theorem encodeRow_marked {table : List TagRow} {a : RowAction} {n : Nat} {g bytes : List Byte}
    (ht : ∀ r ∈ table, r.shapely = true) (hn : n ≤ 9) (hg : isLineText g = true)
    (h : encodeRow table a n g = some bytes) : lineFeed ∉ bytes := by
  obtain ⟨r, hr, rfl⟩ := Option.map_eq_some_iff.mp h
  have hs := ht r (List.mem_of_find?_eq_some hr)
  rw [TagRow.shapely, Bool.and_eq_true] at hs
  simp only [List.mem_append, List.mem_map, not_or, not_exists, not_and]
  exact ⟨fun p hp => byteFor_ne_lineFeed hn (List.all_eq_true.mp hs.2 p hp), lineFeed_not_mem hg⟩

theorem mainLine {table : List TagRow} {a : RowAction} {g bytes : List Byte} (ht : ∀ r ∈ table, r.shapely = true)
    (hw : mainLineWf table a g = true) (h : encodeRow table a 0 g = some bytes) : lineFeed ∉ bytes :=
  encodeRow_marked ht (Nat.zero_le 9) (Bool.and_eq_true_iff.mp hw).2 h

theorem deviceLine {table : List TagRow} {a : RowAction} {n : Nat} {g bytes : List Byte}
    (ht : ∀ r ∈ table, r.shapely = true) (hw : deviceLineWf table a n g = true)
    (h : encodeRow table a n g = some bytes) : lineFeed ∉ bytes := by
  rw [deviceLineWf, Bool.and_eq_true] at hw
  exact encodeRow_marked ht (of_decide_eq_true hw.2) (Bool.and_eq_true_iff.mp hw.1).2 h

theorem operation {i : Instr} {c : Byte} {ops : List Byte} (hp : i.port = .host)
    (hc : 1 ≤ c.toNat ∧ c.toNat ≤ 13) (he : ∀ table, encode table i = some (c :: ops)) : Statement i := by
  intro table bytes _ _ h
  rw [he] at h
  rw [hp]
  exact ⟨c, ops, (Option.some.inj h).symm, hc⟩

theorem uncoded {i : Instr} (he : ∀ table, encode table i = none) : Statement i := by
  intro table bytes _ _ h
  rw [he] at h
  cases h

theorem t01Version (r : NumRule) (g : List Byte) : Statement (.t01Version r g) := fun _ _ ht hw h => mainLine ht hw h
theorem t02Ts (g : List Byte) : Statement (.t02Ts g) := fun _ _ ht hw h => mainLine ht hw h
theorem t03EquipId (g : List Byte) : Statement (.t03EquipId g) := fun _ _ ht hw h => mainLine ht hw h
theorem t04EDelT1 (r : NumRule) (g : List Byte) : Statement (.t04EDelT1 r g) := fun _ _ ht hw h => mainLine ht hw h
theorem t05EDelT2 (r : NumRule) (g : List Byte) : Statement (.t05EDelT2 r g) := fun _ _ ht hw h => mainLine ht hw h
theorem t06EProdT1 (r : NumRule) (g : List Byte) : Statement (.t06EProdT1 r g) := fun _ _ ht hw h => mainLine ht hw h
theorem t07EProdT2 (r : NumRule) (g : List Byte) : Statement (.t07EProdT2 r g) := fun _ _ ht hw h => mainLine ht hw h
theorem t08Tariff (r : NumRule) (g : List Byte) : Statement (.t08Tariff r g) := fun _ _ ht hw h => mainLine ht hw h
theorem t09PDel (r : NumRule) (g : List Byte) : Statement (.t09PDel r g) := fun _ _ ht hw h => mainLine ht hw h
theorem t10PProd (r : NumRule) (g : List Byte) : Statement (.t10PProd r g) := fun _ _ ht hw h => mainLine ht hw h
theorem t11PfShort (r : NumRule) (g : List Byte) : Statement (.t11PfShort r g) := fun _ _ ht hw h => mainLine ht hw h
theorem t12PfLong (r : NumRule) (g : List Byte) : Statement (.t12PfLong r g) := fun _ _ ht hw h => mainLine ht hw h
theorem t13Pflog (g : List Byte) : Statement (.t13Pflog g) := fun _ _ ht hw h => mainLine ht hw h
theorem t14SagL1 (r : NumRule) (g : List Byte) : Statement (.t14SagL1 r g) := fun _ _ ht hw h => mainLine ht hw h
theorem t15SagL2 (r : NumRule) (g : List Byte) : Statement (.t15SagL2 r g) := fun _ _ ht hw h => mainLine ht hw h
theorem t16SagL3 (r : NumRule) (g : List Byte) : Statement (.t16SagL3 r g) := fun _ _ ht hw h => mainLine ht hw h
theorem t17SwellL1 (r : NumRule) (g : List Byte) : Statement (.t17SwellL1 r g) := fun _ _ ht hw h => mainLine ht hw h
theorem t18SwellL2 (r : NumRule) (g : List Byte) : Statement (.t18SwellL2 r g) := fun _ _ ht hw h => mainLine ht hw h
theorem t19SwellL3 (r : NumRule) (g : List Byte) : Statement (.t19SwellL3 r g) := fun _ _ ht hw h => mainLine ht hw h
theorem t20Msg (g : List Byte) : Statement (.t20Msg g) := fun _ _ ht hw h => mainLine ht hw h
theorem t21VL1 (r : NumRule) (g : List Byte) : Statement (.t21VL1 r g) := fun _ _ ht hw h => mainLine ht hw h
theorem t22VL2 (r : NumRule) (g : List Byte) : Statement (.t22VL2 r g) := fun _ _ ht hw h => mainLine ht hw h
theorem t23VL3 (r : NumRule) (g : List Byte) : Statement (.t23VL3 r g) := fun _ _ ht hw h => mainLine ht hw h
theorem t24IL1 (r : NumRule) (g : List Byte) : Statement (.t24IL1 r g) := fun _ _ ht hw h => mainLine ht hw h
theorem t25IL2 (r : NumRule) (g : List Byte) : Statement (.t25IL2 r g) := fun _ _ ht hw h => mainLine ht hw h
theorem t26IL3 (r : NumRule) (g : List Byte) : Statement (.t26IL3 r g) := fun _ _ ht hw h => mainLine ht hw h
theorem t27PDelL1 (r : NumRule) (g : List Byte) : Statement (.t27PDelL1 r g) := fun _ _ ht hw h => mainLine ht hw h
theorem t28PDelL2 (r : NumRule) (g : List Byte) : Statement (.t28PDelL2 r g) := fun _ _ ht hw h => mainLine ht hw h
theorem t29PDelL3 (r : NumRule) (g : List Byte) : Statement (.t29PDelL3 r g) := fun _ _ ht hw h => mainLine ht hw h
theorem t30PProdL1 (r : NumRule) (g : List Byte) : Statement (.t30PProdL1 r g) := fun _ _ ht hw h => mainLine ht hw h
theorem t31PProdL2 (r : NumRule) (g : List Byte) : Statement (.t31PProdL2 r g) := fun _ _ ht hw h => mainLine ht hw h
theorem t32PProdL3 (r : NumRule) (g : List Byte) : Statement (.t32PProdL3 r g) := fun _ _ ht hw h => mainLine ht hw h
theorem t33DevTypeCode (r : NumRule) (n : Nat) (g : List Byte) : Statement (.t33DevTypeCode r n g) :=
  fun _ _ ht hw h => deviceLine ht hw h
theorem t34DevEquipId (n : Nat) (g : List Byte) : Statement (.t34DevEquipId n g) :=
  fun _ _ ht hw h => deviceLine ht hw h
theorem t35DevReading (w f : Nat) (n : Nat) (g : List Byte) : Statement (.t35DevReading w f n g) :=
  fun _ _ ht hw h => deviceLine ht hw h
theorem header (g : List Byte) : Statement (.header g) := fun _ _ _ hw h =>
  ⟨g, (Option.some.inj h).symm, lineFeed_not_mem hw⟩
theorem endline (c1 c2 c3 c4 t1 t2 : Byte) : Statement (.endline c1 c2 c3 c4 t1 t2) := by
  intro _ bytes _ _ h
  cases Option.some.inj h
  exact ⟨rfl, rfl⟩
theorem unrecognised (line : List Byte) : Statement (.unrecognised line) := by
  intro _ bytes _ hw h
  cases Option.some.inj h
  exact lineFeed_not_mem (Bool.and_eq_true_iff.mp hw).1
theorem poll : Statement .poll := operation rfl (by decide) fun _ => rfl
theorem parse : Statement .parse := operation rfl (by decide) fun _ => rfl
theorem abort : Statement .abort := operation rfl (by decide) fun _ => rfl
theorem errclr : Statement .errclr := operation rfl (by decide) fun _ => rfl
theorem rst : Statement .rst := operation rfl (by decide) fun _ => rfl
theorem rdStatus : Statement .rdStatus := operation rfl (by decide) fun _ => rfl
theorem rdErr : Statement .rdErr := operation rfl (by decide) fun _ => rfl
theorem rdLen : Statement .rdLen := operation rfl (by decide) fun _ => rfl
theorem rdBuf (i : Nat) : Statement (.rdBuf i) := operation rfl (by decide) fun _ => rfl
theorem rdRec (f : RecField) : Statement (.rdRec f) := operation rfl (by decide) fun _ => rfl
theorem rdCfg (p : CfgField) : Statement (.rdCfg p) := operation rfl (by decide) fun _ => rfl
theorem arm : Statement .arm := uncoded fun _ => rfl
theorem rxIdleOther (b : Byte) : Statement (.rxIdleOther b) := uncoded fun _ => rfl
theorem rxIdleStart : Statement .rxIdleStart := uncoded fun _ => rfl
theorem rxAppend (b : Byte) : Statement (.rxAppend b) := uncoded fun _ => rfl
theorem rxOverflow (b : Byte) : Statement (.rxOverflow b) := uncoded fun _ => rfl
theorem crc16 (bs : List Byte) : Statement (.crc16 bs) := uncoded fun _ => rfl

end Sys2Proof.Laws.EncodingPort
end

