-- ==== Sys2Proof/Laws/Record.lean ====
section
/-! SUPPORT. The shape of the record (10_state.md R45, R46, R48, R49) is kept by every write of a line. -/

namespace Sys2Proof.Machine

theorem recordWf_default (c : Config) : RecordWf c (defaultRecord c) := by
  constructor <;> simp [defaultRecord, defaultEntry, defaultDevice, defaultStamp]

theorem RecordWf.setNum {c : Config} {r : Record} (h : RecordWf c r) (d : NumDest) (v : Word32) :
    RecordWf c (r.setNum d v) := by
  cases d <;> exact ⟨h.1, h.2, h.3, h.4, h.5, h.6, h.7, h.8, h.9, h.10⟩

theorem RecordWf.withHdr {c : Config} {r : Record} (h : RecordWf c r) {t : List Byte} (ht : t.length ≤ c.hdrMax) :
    RecordWf c (r.withHdr t) := ⟨ht, h.2, h.3, h.4, h.5, h.6, h.7, h.8, h.9, h.10⟩

theorem RecordWf.withTs {c : Config} {r : Record} (h : RecordWf c r) {t : List Byte} (ht : t.length = stampLength) :
    RecordWf c (r.withTs t) := ⟨h.1, ht, h.3, h.4, h.5, h.6, h.7, h.8, h.9, h.10⟩

theorem RecordWf.withEquipId {c : Config} {r : Record} (h : RecordWf c r) {t : List Byte} (ht : t.length ≤ c.idMax) :
    RecordWf c (r.withEquipId t) := ⟨h.1, h.2, ht, h.4, h.5, h.6, h.7, h.8, h.9, h.10⟩

theorem RecordWf.withMsg {c : Config} {r : Record} (h : RecordWf c r) {t : List Byte} (ht : t.length ≤ c.msgMax) :
    RecordWf c (r.withMsg t) := ⟨h.1, h.2, h.3, ht, h.5, h.6, h.7, h.8, h.9, h.10⟩

theorem RecordWf.withDevN {c : Config} {r : Record} (h : RecordWf c r) {n : Nat} (hn : n ≤ c.nsub) :
    RecordWf c (r.withDevN n) := ⟨h.1, h.2, h.3, h.4, h.5, h.6, h.7, h.8, hn, h.10⟩

theorem RecordWf.withCrcTx {c : Config} {r : Record} (h : RecordWf c r) (v : Word16) : RecordWf c (r.withCrcTx v) :=
  ⟨h.1, h.2, h.3, h.4, h.5, h.6, h.7, h.8, h.9, h.10⟩

theorem RecordWf.withCrcCalc {c : Config} {r : Record} (h : RecordWf c r) (v : Word16) :
    RecordWf c (r.withCrcCalc v) := ⟨h.1, h.2, h.3, h.4, h.5, h.6, h.7, h.8, h.9, h.10⟩

theorem RecordWf.withCrcValid {c : Config} {r : Record} (h : RecordWf c r) (v : Bool) :
    RecordWf c (r.withCrcValid v) := ⟨h.1, h.2, h.3, h.4, h.5, h.6, h.7, h.8, h.9, h.10⟩

theorem RecordWf.storeLog {c : Config} {r : Record} (h : RecordWf c r) {es : List LogEntry} (hn : es.length ≤ c.npf)
    (hs : ∀ e ∈ es, e.ts.length = stampLength) : RecordWf c (r.storeLog es) := by
  refine ⟨h.1, h.2, h.3, h.4, ?_, fun e he => ?_, h.7, h.8, h.9, hn⟩
  · have := h.pflog
    simp [Record.storeLog, this]
    omega
  · rcases List.mem_append.mp he with he | he
    · exact hs e he
    · exact h.pflogEntry e (List.mem_of_mem_drop he)

theorem RecordWf.modifyDev {c : Config} {r : Record} (h : RecordWf c r) (k : Nat) {f : Device → Device}
    (hf : ∀ d, d.equipId.length ≤ c.idMax ∧ d.rdTs.length = stampLength ∧ d.rdUnit.length ≤ c.unitMax →
      (f d).equipId.length ≤ c.idMax ∧ (f d).rdTs.length = stampLength ∧ (f d).rdUnit.length ≤ c.unitMax) :
    RecordWf c (r.modifyDev k f) := by
  refine ⟨h.1, h.2, h.3, h.4, h.5, h.6, ?_, fun d hd => ?_, h.9, h.10⟩
  · simpa [Record.modifyDev] using h.dev
  · have hd : d ∈ r.dev.modify k f := hd
    obtain ⟨i, hi⟩ := List.mem_iff_getElem?.mp hd
    rw [List.getElem?_modify] at hi
    obtain ⟨d', hd', rfl⟩ := Option.map_eq_some_iff.mp hi
    have := h.device d' (List.mem_of_getElem? hd')
    split
    · exact hf d' this
    · exact this

/-- The record after a commit keeps its shape if every value the commit can write does. -/
theorem RecordWf.commit {c : Config} {α : Type} {s : State} (h : RecordWf c s.record) (v : Option α)
    {w : α → Record → Record} (hw : ∀ a, v = some a → RecordWf c (w a s.record)) :
    RecordWf c (commit v w s).record := by
  cases v with
  | none => exact h
  | some a => exact hw a rfl

theorem headerText_length (m : Nat) (g : List Byte) : (headerText m g).length ≤ m := by
  simp [headerText, truncate]

theorem deviceCount_le (n : Nat) (body : List Byte) : deviceCount n body ≤ n := by
  unfold deviceCount
  split <;> omega

end Sys2Proof.Machine
end

