-- ==== Sys2Proof/Tests/Slice0.lean ====
section
/-! SUPPORT. The model's own tests: ill-formed terms that WellFormed and Config.wf refuse, one word of each encoding
written out from the spec and decoded, small steps whose expected results are those of spec/95_test_vectors.md, and for
every statement with hypotheses a witness that meets them. -/

namespace Sys2Proof.Tests

open Sys2Proof.Machine

/- The tests are checked one at a time: together they would start more threads than the memory limit has stacks for. -/
set_option Elab.async false

/-! ## Ill-formed terms -/

theorem wf_refuses_a_rule_not_in_the_table : WellFormed defaultTagTable (.t01Version (.fix 6 3) []) = false :=
  by decide +kernel
theorem wf_refuses_a_separator_in_a_line : WellFormed defaultTagTable (.t02Ts [0x0A#8]) = false := by decide +kernel
theorem wf_refuses_a_device_rule_not_in_the_table : WellFormed defaultTagTable (.t35DevReading 6 3 1 []) = false :=
  by decide +kernel
theorem wf_refuses_a_separator_in_a_device_line : WellFormed defaultTagTable (.t34DevEquipId 1 [0x0A#8]) = false :=
  by decide +kernel
theorem wf_refuses_an_ordinal_of_two_digits : WellFormed defaultTagTable (.t34DevEquipId 10 []) = false :=
  by decide +kernel
theorem wf_refuses_a_separator_in_the_header : WellFormed defaultTagTable (.header [0x41#8, 0x0A#8]) = false :=
  by decide +kernel
theorem wf_refuses_a_separator_in_an_unrecognised_line : WellFormed defaultTagTable (.unrecognised [0x0A#8]) = false :=
  by decide +kernel
theorem wf_refuses_an_unrecognised_line_that_a_row_matches : WellFormed defaultTagTable (.unrecognised [0x31#8,
    0x2D#8, 0x33#8, 0x3A#8, 0x30#8, 0x2E#8, 0x32#8, 0x2E#8, 0x38#8, 0x28#8, 0x35#8, 0x30#8, 0x29#8]) = false :=
  by decide +kernel
theorem wf_refuses_a_wide_buffer_index : WellFormed defaultTagTable (.rdBuf 0x100000000) = false := by decide +kernel
theorem wf_refuses_a_wide_record_index : WellFormed defaultTagTable (.rdRec (.pflogTs 0x100000000)) = false :=
  by decide +kernel
theorem wf_refuses_the_start_marker_as_other_byte : WellFormed defaultTagTable (.rxIdleOther 0x2F#8) = false :=
  by decide +kernel

/-- The configuration checks of 00_scope.md R7, one ill-formed configuration for each. -/
theorem config_refuses_a_small_buffer : Config.wf { defaultConfig with cap := 7 } = false := by decide +kernel
theorem config_refuses_no_device_slot : Config.wf { defaultConfig with nsub := 0 } = false := by decide +kernel
theorem config_refuses_ten_device_slots : Config.wf { defaultConfig with nsub := 10 } = false := by decide +kernel
theorem config_refuses_no_log_slot : Config.wf { defaultConfig with npf := 0 } = false := by decide +kernel
theorem config_refuses_no_header : Config.wf { defaultConfig with hdrMax := 0 } = false := by decide +kernel
theorem config_refuses_no_identifier : Config.wf { defaultConfig with idMax := 0 } = false := by decide +kernel
theorem config_refuses_no_message : Config.wf { defaultConfig with msgMax := 0 } = false := by decide +kernel
theorem config_refuses_no_unit : Config.wf { defaultConfig with unitMax := 0 } = false := by decide +kernel
theorem config_refuses_equal_gas_and_thermal : Config.wf { defaultConfig with devThermal := 3#32 } = false :=
  by decide +kernel
theorem config_refuses_equal_gas_and_water : Config.wf { defaultConfig with devWater := 3#32 } = false :=
  by decide +kernel
theorem config_refuses_equal_thermal_and_water : Config.wf { defaultConfig with devWater := 4#32 } = false :=
  by decide +kernel
theorem config_refuses_overlapping_rows : Config.wf { defaultConfig with tagtab := [⟨mainTag [0x31], .ts⟩,
    ⟨mainTag [0x31, 0x32], .msg⟩] } = false :=
  by decide +kernel
theorem config_refuses_a_device_row_without_ordinal : Config.wf { defaultConfig with tagtab := [⟨mainTag [0x31],
    .devEquipId⟩] } = false :=
  by decide +kernel
theorem config_refuses_a_separator_in_a_pattern : Config.wf { defaultConfig with tagtab := [⟨mainTag [0x31, 0x0A],
    .ts⟩] } = false :=
  by decide +kernel

/-! ## Decoding: the words of 30_encoding.md R103, R110 and 45_host.md R259 -/

/-- `1-3:0.2.8(7` -/
theorem decode_t01Version : decode .line defaultTagTable [0x31#8, 0x2D#8, 0x33#8, 0x3A#8, 0x30#8, 0x2E#8, 0x32#8,
    0x2E#8, 0x38#8, 0x28#8, 0x37#8] = .ok (.t01Version .int [0x28#8, 0x37#8]) :=
  by decide +kernel
/-- `0-0:1.0.0(7` -/
theorem decode_t02Ts : decode .line defaultTagTable [0x30#8, 0x2D#8, 0x30#8, 0x3A#8, 0x31#8, 0x2E#8, 0x30#8, 0x2E#8,
    0x30#8, 0x28#8, 0x37#8] = .ok (.t02Ts [0x28#8, 0x37#8]) :=
  by decide +kernel
/-- `0-0:96.1.1(7` -/
theorem decode_t03EquipId : decode .line defaultTagTable [0x30#8, 0x2D#8, 0x30#8, 0x3A#8, 0x39#8, 0x36#8, 0x2E#8,
    0x31#8, 0x2E#8, 0x31#8, 0x28#8, 0x37#8] = .ok (.t03EquipId [0x28#8, 0x37#8]) :=
  by decide +kernel
/-- `1-0:1.8.1(7` -/
theorem decode_t04EDelT1 : decode .line defaultTagTable [0x31#8, 0x2D#8, 0x30#8, 0x3A#8, 0x31#8, 0x2E#8, 0x38#8,
    0x2E#8, 0x31#8, 0x28#8, 0x37#8] = .ok (.t04EDelT1 (.fix 6 3) [0x28#8, 0x37#8]) :=
  by decide +kernel
/-- `1-0:1.8.2(7` -/
theorem decode_t05EDelT2 : decode .line defaultTagTable [0x31#8, 0x2D#8, 0x30#8, 0x3A#8, 0x31#8, 0x2E#8, 0x38#8,
    0x2E#8, 0x32#8, 0x28#8, 0x37#8] = .ok (.t05EDelT2 (.fix 6 3) [0x28#8, 0x37#8]) :=
  by decide +kernel
/-- `1-0:2.8.1(7` -/
theorem decode_t06EProdT1 : decode .line defaultTagTable [0x31#8, 0x2D#8, 0x30#8, 0x3A#8, 0x32#8, 0x2E#8, 0x38#8,
    0x2E#8, 0x31#8, 0x28#8, 0x37#8] = .ok (.t06EProdT1 (.fix 6 3) [0x28#8, 0x37#8]) :=
  by decide +kernel
/-- `1-0:2.8.2(7` -/
theorem decode_t07EProdT2 : decode .line defaultTagTable [0x31#8, 0x2D#8, 0x30#8, 0x3A#8, 0x32#8, 0x2E#8, 0x38#8,
    0x2E#8, 0x32#8, 0x28#8, 0x37#8] = .ok (.t07EProdT2 (.fix 6 3) [0x28#8, 0x37#8]) :=
  by decide +kernel
/-- `0-0:96.14.0(7` -/
theorem decode_t08Tariff : decode .line defaultTagTable [0x30#8, 0x2D#8, 0x30#8, 0x3A#8, 0x39#8, 0x36#8, 0x2E#8,
    0x31#8, 0x34#8, 0x2E#8, 0x30#8, 0x28#8, 0x37#8] = .ok (.t08Tariff .int [0x28#8, 0x37#8]) :=
  by decide +kernel
/-- `1-0:1.7.0(7` -/
theorem decode_t09PDel : decode .line defaultTagTable [0x31#8, 0x2D#8, 0x30#8, 0x3A#8, 0x31#8, 0x2E#8, 0x37#8,
    0x2E#8, 0x30#8, 0x28#8, 0x37#8] = .ok (.t09PDel (.fix 2 3) [0x28#8, 0x37#8]) :=
  by decide +kernel
/-- `1-0:2.7.0(7` -/
theorem decode_t10PProd : decode .line defaultTagTable [0x31#8, 0x2D#8, 0x30#8, 0x3A#8, 0x32#8, 0x2E#8, 0x37#8,
    0x2E#8, 0x30#8, 0x28#8, 0x37#8] = .ok (.t10PProd (.fix 2 3) [0x28#8, 0x37#8]) :=
  by decide +kernel
/-- `0-0:96.7.21(7` -/
theorem decode_t11PfShort : decode .line defaultTagTable [0x30#8, 0x2D#8, 0x30#8, 0x3A#8, 0x39#8, 0x36#8, 0x2E#8,
    0x37#8, 0x2E#8, 0x32#8, 0x31#8, 0x28#8, 0x37#8] = .ok (.t11PfShort .int [0x28#8, 0x37#8]) :=
  by decide +kernel
/-- `0-0:96.7.9(7` -/
theorem decode_t12PfLong : decode .line defaultTagTable [0x30#8, 0x2D#8, 0x30#8, 0x3A#8, 0x39#8, 0x36#8, 0x2E#8,
    0x37#8, 0x2E#8, 0x39#8, 0x28#8, 0x37#8] = .ok (.t12PfLong .int [0x28#8, 0x37#8]) :=
  by decide +kernel
/-- `1-0:99.97.0(7` -/
theorem decode_t13Pflog : decode .line defaultTagTable [0x31#8, 0x2D#8, 0x30#8, 0x3A#8, 0x39#8, 0x39#8, 0x2E#8,
    0x39#8, 0x37#8, 0x2E#8, 0x30#8, 0x28#8, 0x37#8] = .ok (.t13Pflog [0x28#8, 0x37#8]) :=
  by decide +kernel
/-- `1-0:32.32.0(7` -/
theorem decode_t14SagL1 : decode .line defaultTagTable [0x31#8, 0x2D#8, 0x30#8, 0x3A#8, 0x33#8, 0x32#8, 0x2E#8,
    0x33#8, 0x32#8, 0x2E#8, 0x30#8, 0x28#8, 0x37#8] = .ok (.t14SagL1 .int [0x28#8, 0x37#8]) :=
  by decide +kernel
/-- `1-0:52.32.0(7` -/
theorem decode_t15SagL2 : decode .line defaultTagTable [0x31#8, 0x2D#8, 0x30#8, 0x3A#8, 0x35#8, 0x32#8, 0x2E#8,
    0x33#8, 0x32#8, 0x2E#8, 0x30#8, 0x28#8, 0x37#8] = .ok (.t15SagL2 .int [0x28#8, 0x37#8]) :=
  by decide +kernel
/-- `1-0:72.32.0(7` -/
theorem decode_t16SagL3 : decode .line defaultTagTable [0x31#8, 0x2D#8, 0x30#8, 0x3A#8, 0x37#8, 0x32#8, 0x2E#8,
    0x33#8, 0x32#8, 0x2E#8, 0x30#8, 0x28#8, 0x37#8] = .ok (.t16SagL3 .int [0x28#8, 0x37#8]) :=
  by decide +kernel
/-- `1-0:32.36.0(7` -/
theorem decode_t17SwellL1 : decode .line defaultTagTable [0x31#8, 0x2D#8, 0x30#8, 0x3A#8, 0x33#8, 0x32#8, 0x2E#8,
    0x33#8, 0x36#8, 0x2E#8, 0x30#8, 0x28#8, 0x37#8] = .ok (.t17SwellL1 .int [0x28#8, 0x37#8]) :=
  by decide +kernel
/-- `1-0:52.36.0(7` -/
theorem decode_t18SwellL2 : decode .line defaultTagTable [0x31#8, 0x2D#8, 0x30#8, 0x3A#8, 0x35#8, 0x32#8, 0x2E#8,
    0x33#8, 0x36#8, 0x2E#8, 0x30#8, 0x28#8, 0x37#8] = .ok (.t18SwellL2 .int [0x28#8, 0x37#8]) :=
  by decide +kernel
/-- `1-0:72.36.0(7` -/
theorem decode_t19SwellL3 : decode .line defaultTagTable [0x31#8, 0x2D#8, 0x30#8, 0x3A#8, 0x37#8, 0x32#8, 0x2E#8,
    0x33#8, 0x36#8, 0x2E#8, 0x30#8, 0x28#8, 0x37#8] = .ok (.t19SwellL3 .int [0x28#8, 0x37#8]) :=
  by decide +kernel
/-- `0-0:96.13.0(7` -/
theorem decode_t20Msg : decode .line defaultTagTable [0x30#8, 0x2D#8, 0x30#8, 0x3A#8, 0x39#8, 0x36#8, 0x2E#8, 0x31#8,
    0x33#8, 0x2E#8, 0x30#8, 0x28#8, 0x37#8] = .ok (.t20Msg [0x28#8, 0x37#8]) :=
  by decide +kernel
/-- `1-0:32.7.0(7` -/
theorem decode_t21VL1 : decode .line defaultTagTable [0x31#8, 0x2D#8, 0x30#8, 0x3A#8, 0x33#8, 0x32#8, 0x2E#8, 0x37#8,
    0x2E#8, 0x30#8, 0x28#8, 0x37#8] = .ok (.t21VL1 (.fix 3 1) [0x28#8, 0x37#8]) :=
  by decide +kernel
/-- `1-0:52.7.0(7` -/
theorem decode_t22VL2 : decode .line defaultTagTable [0x31#8, 0x2D#8, 0x30#8, 0x3A#8, 0x35#8, 0x32#8, 0x2E#8, 0x37#8,
    0x2E#8, 0x30#8, 0x28#8, 0x37#8] = .ok (.t22VL2 (.fix 3 1) [0x28#8, 0x37#8]) :=
  by decide +kernel
/-- `1-0:72.7.0(7` -/
theorem decode_t23VL3 : decode .line defaultTagTable [0x31#8, 0x2D#8, 0x30#8, 0x3A#8, 0x37#8, 0x32#8, 0x2E#8, 0x37#8,
    0x2E#8, 0x30#8, 0x28#8, 0x37#8] = .ok (.t23VL3 (.fix 3 1) [0x28#8, 0x37#8]) :=
  by decide +kernel
/-- `1-0:31.7.0(7` -/
theorem decode_t24IL1 : decode .line defaultTagTable [0x31#8, 0x2D#8, 0x30#8, 0x3A#8, 0x33#8, 0x31#8, 0x2E#8, 0x37#8,
    0x2E#8, 0x30#8, 0x28#8, 0x37#8] = .ok (.t24IL1 .int [0x28#8, 0x37#8]) :=
  by decide +kernel
/-- `1-0:51.7.0(7` -/
theorem decode_t25IL2 : decode .line defaultTagTable [0x31#8, 0x2D#8, 0x30#8, 0x3A#8, 0x35#8, 0x31#8, 0x2E#8, 0x37#8,
    0x2E#8, 0x30#8, 0x28#8, 0x37#8] = .ok (.t25IL2 .int [0x28#8, 0x37#8]) :=
  by decide +kernel
/-- `1-0:71.7.0(7` -/
theorem decode_t26IL3 : decode .line defaultTagTable [0x31#8, 0x2D#8, 0x30#8, 0x3A#8, 0x37#8, 0x31#8, 0x2E#8, 0x37#8,
    0x2E#8, 0x30#8, 0x28#8, 0x37#8] = .ok (.t26IL3 .int [0x28#8, 0x37#8]) :=
  by decide +kernel
/-- `1-0:21.7.0(7` -/
theorem decode_t27PDelL1 : decode .line defaultTagTable [0x31#8, 0x2D#8, 0x30#8, 0x3A#8, 0x32#8, 0x31#8, 0x2E#8,
    0x37#8, 0x2E#8, 0x30#8, 0x28#8, 0x37#8] = .ok (.t27PDelL1 (.fix 2 3) [0x28#8, 0x37#8]) :=
  by decide +kernel
/-- `1-0:41.7.0(7` -/
theorem decode_t28PDelL2 : decode .line defaultTagTable [0x31#8, 0x2D#8, 0x30#8, 0x3A#8, 0x34#8, 0x31#8, 0x2E#8,
    0x37#8, 0x2E#8, 0x30#8, 0x28#8, 0x37#8] = .ok (.t28PDelL2 (.fix 2 3) [0x28#8, 0x37#8]) :=
  by decide +kernel
/-- `1-0:61.7.0(7` -/
theorem decode_t29PDelL3 : decode .line defaultTagTable [0x31#8, 0x2D#8, 0x30#8, 0x3A#8, 0x36#8, 0x31#8, 0x2E#8,
    0x37#8, 0x2E#8, 0x30#8, 0x28#8, 0x37#8] = .ok (.t29PDelL3 (.fix 2 3) [0x28#8, 0x37#8]) :=
  by decide +kernel
/-- `1-0:22.7.0(7` -/
theorem decode_t30PProdL1 : decode .line defaultTagTable [0x31#8, 0x2D#8, 0x30#8, 0x3A#8, 0x32#8, 0x32#8, 0x2E#8,
    0x37#8, 0x2E#8, 0x30#8, 0x28#8, 0x37#8] = .ok (.t30PProdL1 (.fix 2 3) [0x28#8, 0x37#8]) :=
  by decide +kernel
/-- `1-0:42.7.0(7` -/
theorem decode_t31PProdL2 : decode .line defaultTagTable [0x31#8, 0x2D#8, 0x30#8, 0x3A#8, 0x34#8, 0x32#8, 0x2E#8,
    0x37#8, 0x2E#8, 0x30#8, 0x28#8, 0x37#8] = .ok (.t31PProdL2 (.fix 2 3) [0x28#8, 0x37#8]) :=
  by decide +kernel
/-- `1-0:62.7.0(7` -/
theorem decode_t32PProdL3 : decode .line defaultTagTable [0x31#8, 0x2D#8, 0x30#8, 0x3A#8, 0x36#8, 0x32#8, 0x2E#8,
    0x37#8, 0x2E#8, 0x30#8, 0x28#8, 0x37#8] = .ok (.t32PProdL3 (.fix 2 3) [0x28#8, 0x37#8]) :=
  by decide +kernel
/-- `0-3:24.1.0(7` -/
theorem decode_t33DevTypeCode : decode .line defaultTagTable [0x30#8, 0x2D#8, 0x33#8, 0x3A#8, 0x32#8, 0x34#8, 0x2E#8,
    0x31#8, 0x2E#8, 0x30#8, 0x28#8, 0x37#8] = .ok (.t33DevTypeCode .int 3 [0x28#8, 0x37#8]) :=
  by decide +kernel
/-- `0-3:96.1.0(7` -/
theorem decode_t34DevEquipId : decode .line defaultTagTable [0x30#8, 0x2D#8, 0x33#8, 0x3A#8, 0x39#8, 0x36#8, 0x2E#8,
    0x31#8, 0x2E#8, 0x30#8, 0x28#8, 0x37#8] = .ok (.t34DevEquipId 3 [0x28#8, 0x37#8]) :=
  by decide +kernel
/-- `0-3:24.2.1(7` -/
theorem decode_t35DevReading : decode .line defaultTagTable [0x30#8, 0x2D#8, 0x33#8, 0x3A#8, 0x32#8, 0x34#8, 0x2E#8,
    0x32#8, 0x2E#8, 0x31#8, 0x28#8, 0x37#8] = .ok (.t35DevReading 5 3 3 [0x28#8, 0x37#8]) :=
  by decide +kernel
theorem decode_header : decode .line0 defaultTagTable [0x2F#8, 0x48#8, 0x0D#8] = .ok (.header [0x48#8, 0x0D#8]) :=
  by decide +kernel
theorem decode_endline : decode .trailer defaultTagTable [0x21#8, 0x37#8, 0x42#8, 0x31#8, 0x37#8, 0x0D#8,
    0x0A#8] = .ok (.endline 0x37#8 0x42#8 0x31#8 0x37#8 0x0D#8 0x0A#8) :=
  by decide +kernel
theorem decode_unrecognised : decode .line defaultTagTable [0x31#8, 0x2D#8, 0x33#8, 0x3A#8, 0x30#8, 0x2E#8, 0x32#8,
    0x2E#8, 0x39#8, 0x28#8, 0x35#8, 0x30#8, 0x29#8] = .ok (.unrecognised [0x31#8, 0x2D#8, 0x33#8, 0x3A#8, 0x30#8,
    0x2E#8, 0x32#8, 0x2E#8, 0x39#8, 0x28#8, 0x35#8, 0x30#8, 0x29#8]) :=
  by decide +kernel
theorem decode_an_ordinal_of_two_digits : decode .line defaultTagTable [0x30#8, 0x2D#8, 0x31#8, 0x32#8, 0x3A#8,
    0x32#8, 0x34#8, 0x2E#8, 0x31#8, 0x2E#8, 0x30#8, 0x28#8, 0x30#8, 0x30#8, 0x33#8,
    0x29#8] = .ok (.unrecognised [0x30#8, 0x2D#8, 0x31#8, 0x32#8, 0x3A#8, 0x32#8, 0x34#8, 0x2E#8, 0x31#8, 0x2E#8,
    0x30#8, 0x28#8, 0x30#8, 0x30#8, 0x33#8, 0x29#8]) :=
  by decide +kernel
theorem decode_poll : decode .host defaultTagTable [0x01#8] = .ok (.poll) := by decide +kernel
theorem decode_parse : decode .host defaultTagTable [0x02#8] = .ok (.parse) := by decide +kernel
theorem decode_abort : decode .host defaultTagTable [0x03#8] = .ok (.abort) := by decide +kernel
theorem decode_errclr : decode .host defaultTagTable [0x04#8] = .ok (.errclr) := by decide +kernel
theorem decode_rst : decode .host defaultTagTable [0x05#8] = .ok (.rst) := by decide +kernel
theorem decode_rdStatus : decode .host defaultTagTable [0x08#8] = .ok (.rdStatus) := by decide +kernel
theorem decode_rdErr : decode .host defaultTagTable [0x09#8] = .ok (.rdErr) := by decide +kernel
theorem decode_rdLen : decode .host defaultTagTable [0x0A#8] = .ok (.rdLen) := by decide +kernel
theorem decode_rdBuf : decode .host defaultTagTable [0x0B#8, 0xFF#8, 0x03#8, 0x00#8, 0x00#8] = .ok (.rdBuf 1023) :=
  by decide +kernel
theorem decode_rdRec : decode .host defaultTagTable [0x0C#8, 0x25#8, 0x09#8, 0x00#8, 0x00#8,
    0x00#8] = .ok (.rdRec (.pflogTs 9)) :=
  by decide +kernel
theorem decode_rdCfg : decode .host defaultTagTable [0x0D#8, 0x09#8] = .ok (.rdCfg .tagtab) := by decide +kernel

/-- The micro-operations and CRC16 have no code (45_host.md R259). -/
theorem micro_operations_have_no_code :
    [Instr.arm, .rxIdleOther 0x41#8, .rxIdleStart, .rxAppend 0x41#8, .rxOverflow 0x41#8, .crc16 []].map
      (encode defaultTagTable) = [none, none, none, none, none, none] := by decide

/-! ## Small steps -/

/-- The machine after reset, with a small buffer. -/
def small : State := State.resetWith { defaultConfig with cap := 12 }

/-- The state after an answer. -/
def after? : Result → Option State
  | .next s => some s
  | .fault _ | .refused _ => none

/-- What a line stores, read from the record it leaves. -/
def stored? {α : Type} (line : List Byte) (f : Record → α) : Option α :=
  (after? (exec (decodeLine defaultTagTable line) State.reset)).map fun s => f s.record

/-- A complete frame in the buffer. -/
def readyWith (frame : List Byte) : State := loadFrame frame small

/-- A frame in progress. -/
def assemblingWith (frame : List Byte) : State := (readyWith frame).withSt .assembling

/-- What PARSE leaves. -/
def parsed? {α : Type} (frame : List Byte) (f : State → α) : Option α :=
  (after? (exec .parse (loadFrame frame State.reset))).map f

/-! Expected values: V70, V83 to V94, V100, V111 to V126, V130, V140, V149, V160, V169, V180, V190, V192 and,
    for the corner
cases, V76, V106, V134, V143, V184, V201. -/

/-- `1-3:0.2.8(50)` -/
theorem line_t01 : stored? [0x31#8, 0x2D#8, 0x33#8, 0x3A#8, 0x30#8, 0x2E#8, 0x32#8, 0x2E#8, 0x38#8, 0x28#8, 0x35#8,
    0x30#8, 0x29#8] (·.version) = some 50#32 :=
  by decide +kernel
/-- `1-0:1.8.1(123456.789*kWh)` -/
theorem line_t04 : stored? [0x31#8, 0x2D#8, 0x30#8, 0x3A#8, 0x31#8, 0x2E#8, 0x38#8, 0x2E#8, 0x31#8, 0x28#8, 0x31#8,
    0x32#8, 0x33#8, 0x34#8, 0x35#8, 0x36#8, 0x2E#8, 0x37#8, 0x38#8, 0x39#8, 0x2A#8, 0x6B#8, 0x57#8, 0x68#8,
    0x29#8] (·.eDelT1) = some 123456789#32 :=
  by decide +kernel
/-- `1-0:1.8.2(000002.000*kWh)` -/
theorem line_t05 : stored? [0x31#8, 0x2D#8, 0x30#8, 0x3A#8, 0x31#8, 0x2E#8, 0x38#8, 0x2E#8, 0x32#8, 0x28#8, 0x30#8,
    0x30#8, 0x30#8, 0x30#8, 0x30#8, 0x32#8, 0x2E#8, 0x30#8, 0x30#8, 0x30#8, 0x2A#8, 0x6B#8, 0x57#8, 0x68#8,
    0x29#8] (·.eDelT2) = some 2000#32 :=
  by decide +kernel
/-- `1-0:2.8.1(000003.000*kWh)` -/
theorem line_t06 : stored? [0x31#8, 0x2D#8, 0x30#8, 0x3A#8, 0x32#8, 0x2E#8, 0x38#8, 0x2E#8, 0x31#8, 0x28#8, 0x30#8,
    0x30#8, 0x30#8, 0x30#8, 0x30#8, 0x33#8, 0x2E#8, 0x30#8, 0x30#8, 0x30#8, 0x2A#8, 0x6B#8, 0x57#8, 0x68#8,
    0x29#8] (·.eProdT1) = some 3000#32 :=
  by decide +kernel
/-- `1-0:2.8.2(000000.001*kWh)` -/
theorem line_t07 : stored? [0x31#8, 0x2D#8, 0x30#8, 0x3A#8, 0x32#8, 0x2E#8, 0x38#8, 0x2E#8, 0x32#8, 0x28#8, 0x30#8,
    0x30#8, 0x30#8, 0x30#8, 0x30#8, 0x30#8, 0x2E#8, 0x30#8, 0x30#8, 0x31#8, 0x2A#8, 0x6B#8, 0x57#8, 0x68#8,
    0x29#8] (·.eProdT2) = some 1#32 :=
  by decide +kernel
/-- `0-0:96.14.0(0002)` -/
theorem line_t08 : stored? [0x30#8, 0x2D#8, 0x30#8, 0x3A#8, 0x39#8, 0x36#8, 0x2E#8, 0x31#8, 0x34#8, 0x2E#8, 0x30#8,
    0x28#8, 0x30#8, 0x30#8, 0x30#8, 0x32#8, 0x29#8] (·.tariff) = some 2#32 :=
  by decide +kernel
/-- `1-0:1.7.0(01.193*kW)` -/
theorem line_t09 : stored? [0x31#8, 0x2D#8, 0x30#8, 0x3A#8, 0x31#8, 0x2E#8, 0x37#8, 0x2E#8, 0x30#8, 0x28#8, 0x30#8,
    0x31#8, 0x2E#8, 0x31#8, 0x39#8, 0x33#8, 0x2A#8, 0x6B#8, 0x57#8, 0x29#8] (·.pDel) = some 1193#32 :=
  by decide +kernel
/-- `1-0:2.7.0(00.250*kW)` -/
theorem line_t10 : stored? [0x31#8, 0x2D#8, 0x30#8, 0x3A#8, 0x32#8, 0x2E#8, 0x37#8, 0x2E#8, 0x30#8, 0x28#8, 0x30#8,
    0x30#8, 0x2E#8, 0x32#8, 0x35#8, 0x30#8, 0x2A#8, 0x6B#8, 0x57#8, 0x29#8] (·.pProd) = some 250#32 :=
  by decide +kernel
/-- `0-0:96.7.21(00004)` -/
theorem line_t11 : stored? [0x30#8, 0x2D#8, 0x30#8, 0x3A#8, 0x39#8, 0x36#8, 0x2E#8, 0x37#8, 0x2E#8, 0x32#8, 0x31#8,
    0x28#8, 0x30#8, 0x30#8, 0x30#8, 0x30#8, 0x34#8, 0x29#8] (·.pfShort) = some 4#32 :=
  by decide +kernel
/-- `0-0:96.7.9(00002)` -/
theorem line_t12 : stored? [0x30#8, 0x2D#8, 0x30#8, 0x3A#8, 0x39#8, 0x36#8, 0x2E#8, 0x37#8, 0x2E#8, 0x39#8, 0x28#8,
    0x30#8, 0x30#8, 0x30#8, 0x30#8, 0x32#8, 0x29#8] (·.pfLong) = some 2#32 :=
  by decide +kernel
/-- `1-0:32.32.0(00002)` -/
theorem line_t14 : stored? [0x31#8, 0x2D#8, 0x30#8, 0x3A#8, 0x33#8, 0x32#8, 0x2E#8, 0x33#8, 0x32#8, 0x2E#8, 0x30#8,
    0x28#8, 0x30#8, 0x30#8, 0x30#8, 0x30#8, 0x32#8, 0x29#8] (·.sagL1) = some 2#32 :=
  by decide +kernel
/-- `1-0:52.32.0(00001)` -/
theorem line_t15 : stored? [0x31#8, 0x2D#8, 0x30#8, 0x3A#8, 0x35#8, 0x32#8, 0x2E#8, 0x33#8, 0x32#8, 0x2E#8, 0x30#8,
    0x28#8, 0x30#8, 0x30#8, 0x30#8, 0x30#8, 0x31#8, 0x29#8] (·.sagL2) = some 1#32 :=
  by decide +kernel
/-- `1-0:72.32.0(00007)` -/
theorem line_t16 : stored? [0x31#8, 0x2D#8, 0x30#8, 0x3A#8, 0x37#8, 0x32#8, 0x2E#8, 0x33#8, 0x32#8, 0x2E#8, 0x30#8,
    0x28#8, 0x30#8, 0x30#8, 0x30#8, 0x30#8, 0x37#8, 0x29#8] (·.sagL3) = some 7#32 :=
  by decide +kernel
/-- `1-0:32.36.0(00001)` -/
theorem line_t17 : stored? [0x31#8, 0x2D#8, 0x30#8, 0x3A#8, 0x33#8, 0x32#8, 0x2E#8, 0x33#8, 0x36#8, 0x2E#8, 0x30#8,
    0x28#8, 0x30#8, 0x30#8, 0x30#8, 0x30#8, 0x31#8, 0x29#8] (·.swellL1) = some 1#32 :=
  by decide +kernel
/-- `1-0:52.36.0(00003)` -/
theorem line_t18 : stored? [0x31#8, 0x2D#8, 0x30#8, 0x3A#8, 0x35#8, 0x32#8, 0x2E#8, 0x33#8, 0x36#8, 0x2E#8, 0x30#8,
    0x28#8, 0x30#8, 0x30#8, 0x30#8, 0x30#8, 0x33#8, 0x29#8] (·.swellL2) = some 3#32 :=
  by decide +kernel
/-- `1-0:72.36.0(00009)` -/
theorem line_t19 : stored? [0x31#8, 0x2D#8, 0x30#8, 0x3A#8, 0x37#8, 0x32#8, 0x2E#8, 0x33#8, 0x36#8, 0x2E#8, 0x30#8,
    0x28#8, 0x30#8, 0x30#8, 0x30#8, 0x30#8, 0x39#8, 0x29#8] (·.swellL3) = some 9#32 :=
  by decide +kernel
/-- `1-0:32.7.0(220.1*V)` -/
theorem line_t21 : stored? [0x31#8, 0x2D#8, 0x30#8, 0x3A#8, 0x33#8, 0x32#8, 0x2E#8, 0x37#8, 0x2E#8, 0x30#8, 0x28#8,
    0x32#8, 0x32#8, 0x30#8, 0x2E#8, 0x31#8, 0x2A#8, 0x56#8, 0x29#8] (·.vL1) = some 2201#32 :=
  by decide +kernel
/-- `1-0:52.7.0(220.2*V)` -/
theorem line_t22 : stored? [0x31#8, 0x2D#8, 0x30#8, 0x3A#8, 0x35#8, 0x32#8, 0x2E#8, 0x37#8, 0x2E#8, 0x30#8, 0x28#8,
    0x32#8, 0x32#8, 0x30#8, 0x2E#8, 0x32#8, 0x2A#8, 0x56#8, 0x29#8] (·.vL2) = some 2202#32 :=
  by decide +kernel
/-- `1-0:72.7.0(220.3*V)` -/
theorem line_t23 : stored? [0x31#8, 0x2D#8, 0x30#8, 0x3A#8, 0x37#8, 0x32#8, 0x2E#8, 0x37#8, 0x2E#8, 0x30#8, 0x28#8,
    0x32#8, 0x32#8, 0x30#8, 0x2E#8, 0x33#8, 0x2A#8, 0x56#8, 0x29#8] (·.vL3) = some 2203#32 :=
  by decide +kernel
/-- `1-0:31.7.0(001*A)` -/
theorem line_t24 : stored? [0x31#8, 0x2D#8, 0x30#8, 0x3A#8, 0x33#8, 0x31#8, 0x2E#8, 0x37#8, 0x2E#8, 0x30#8, 0x28#8,
    0x30#8, 0x30#8, 0x31#8, 0x2A#8, 0x41#8, 0x29#8] (·.iL1) = some 1#32 :=
  by decide +kernel
/-- `1-0:51.7.0(002*A)` -/
theorem line_t25 : stored? [0x31#8, 0x2D#8, 0x30#8, 0x3A#8, 0x35#8, 0x31#8, 0x2E#8, 0x37#8, 0x2E#8, 0x30#8, 0x28#8,
    0x30#8, 0x30#8, 0x32#8, 0x2A#8, 0x41#8, 0x29#8] (·.iL2) = some 2#32 :=
  by decide +kernel
/-- `1-0:71.7.0(003*A)` -/
theorem line_t26 : stored? [0x31#8, 0x2D#8, 0x30#8, 0x3A#8, 0x37#8, 0x31#8, 0x2E#8, 0x37#8, 0x2E#8, 0x30#8, 0x28#8,
    0x30#8, 0x30#8, 0x33#8, 0x2A#8, 0x41#8, 0x29#8] (·.iL3) = some 3#32 :=
  by decide +kernel
/-- `1-0:21.7.0(01.111*kW)` -/
theorem line_t27 : stored? [0x31#8, 0x2D#8, 0x30#8, 0x3A#8, 0x32#8, 0x31#8, 0x2E#8, 0x37#8, 0x2E#8, 0x30#8, 0x28#8,
    0x30#8, 0x31#8, 0x2E#8, 0x31#8, 0x31#8, 0x31#8, 0x2A#8, 0x6B#8, 0x57#8, 0x29#8] (·.pDelL1) = some 1111#32 :=
  by decide +kernel
/-- `1-0:41.7.0(02.222*kW)` -/
theorem line_t28 : stored? [0x31#8, 0x2D#8, 0x30#8, 0x3A#8, 0x34#8, 0x31#8, 0x2E#8, 0x37#8, 0x2E#8, 0x30#8, 0x28#8,
    0x30#8, 0x32#8, 0x2E#8, 0x32#8, 0x32#8, 0x32#8, 0x2A#8, 0x6B#8, 0x57#8, 0x29#8] (·.pDelL2) = some 2222#32 :=
  by decide +kernel
/-- `1-0:61.7.0(03.333*kW)` -/
theorem line_t29 : stored? [0x31#8, 0x2D#8, 0x30#8, 0x3A#8, 0x36#8, 0x31#8, 0x2E#8, 0x37#8, 0x2E#8, 0x30#8, 0x28#8,
    0x30#8, 0x33#8, 0x2E#8, 0x33#8, 0x33#8, 0x33#8, 0x2A#8, 0x6B#8, 0x57#8, 0x29#8] (·.pDelL3) = some 3333#32 :=
  by decide +kernel
/-- `1-0:22.7.0(04.444*kW)` -/
theorem line_t30 : stored? [0x31#8, 0x2D#8, 0x30#8, 0x3A#8, 0x32#8, 0x32#8, 0x2E#8, 0x37#8, 0x2E#8, 0x30#8, 0x28#8,
    0x30#8, 0x34#8, 0x2E#8, 0x34#8, 0x34#8, 0x34#8, 0x2A#8, 0x6B#8, 0x57#8, 0x29#8] (·.pProdL1) = some 4444#32 :=
  by decide +kernel
/-- `1-0:42.7.0(05.555*kW)` -/
theorem line_t31 : stored? [0x31#8, 0x2D#8, 0x30#8, 0x3A#8, 0x34#8, 0x32#8, 0x2E#8, 0x37#8, 0x2E#8, 0x30#8, 0x28#8,
    0x30#8, 0x35#8, 0x2E#8, 0x35#8, 0x35#8, 0x35#8, 0x2A#8, 0x6B#8, 0x57#8, 0x29#8] (·.pProdL2) = some 5555#32 :=
  by decide +kernel
/-- `1-0:62.7.0(06.666*kW)` -/
theorem line_t32 : stored? [0x31#8, 0x2D#8, 0x30#8, 0x3A#8, 0x36#8, 0x32#8, 0x2E#8, 0x37#8, 0x2E#8, 0x30#8, 0x28#8,
    0x30#8, 0x36#8, 0x2E#8, 0x36#8, 0x36#8, 0x36#8, 0x2A#8, 0x6B#8, 0x57#8, 0x29#8] (·.pProdL3) = some 6666#32 :=
  by decide +kernel
/-- `1-3:0.2.8(4294967296)` -/
theorem line_t01_overflow : stored? [0x31#8, 0x2D#8, 0x33#8, 0x3A#8, 0x30#8, 0x2E#8, 0x32#8, 0x2E#8, 0x38#8, 0x28#8,
    0x34#8, 0x32#8, 0x39#8, 0x34#8, 0x39#8, 0x36#8, 0x37#8, 0x32#8, 0x39#8, 0x36#8, 0x29#8] (·.version) = some 0#32 :=
  by decide +kernel
/-- `1-0:1.8.1(12345.6789*kWh)` -/
theorem line_t04_misplaced_point : stored? [0x31#8, 0x2D#8, 0x30#8, 0x3A#8, 0x31#8, 0x2E#8, 0x38#8, 0x2E#8, 0x31#8,
    0x28#8, 0x31#8, 0x32#8, 0x33#8, 0x34#8, 0x35#8, 0x2E#8, 0x36#8, 0x37#8, 0x38#8, 0x39#8, 0x2A#8, 0x6B#8, 0x57#8,
    0x68#8, 0x29#8] (·.eDelT1) = some 0#32 :=
  by decide +kernel
/-- `0-0:1.0.0(220101120000W)` -/
theorem line_t02 : stored? [0x30#8, 0x2D#8, 0x30#8, 0x3A#8, 0x31#8, 0x2E#8, 0x30#8, 0x2E#8, 0x30#8, 0x28#8, 0x32#8,
    0x32#8, 0x30#8, 0x31#8, 0x30#8, 0x31#8, 0x31#8, 0x32#8, 0x30#8, 0x30#8, 0x30#8, 0x30#8, 0x57#8,
    0x29#8] (·.ts) = some [0x32#8, 0x32#8, 0x30#8, 0x31#8, 0x30#8, 0x31#8, 0x31#8, 0x32#8, 0x30#8, 0x30#8, 0x30#8,
    0x30#8, 0x57#8] :=
  by decide +kernel
/-- `0-0:1.0.0(22010112000)\r` -/
theorem line_t02_takes_thirteen_bytes : stored? [0x30#8, 0x2D#8, 0x30#8, 0x3A#8, 0x31#8, 0x2E#8, 0x30#8, 0x2E#8,
    0x30#8, 0x28#8, 0x32#8, 0x32#8, 0x30#8, 0x31#8, 0x30#8, 0x31#8, 0x31#8, 0x32#8, 0x30#8, 0x30#8, 0x30#8, 0x29#8,
    0x0D#8] (·.ts) = some [0x32#8, 0x32#8, 0x30#8, 0x31#8, 0x30#8, 0x31#8, 0x31#8, 0x32#8, 0x30#8, 0x30#8, 0x30#8,
    0x29#8, 0x0D#8] :=
  by decide +kernel
/-- `0-0:96.1.1(4B38)\r` -/
theorem line_t03 : stored? [0x30#8, 0x2D#8, 0x30#8, 0x3A#8, 0x39#8, 0x36#8, 0x2E#8, 0x31#8, 0x2E#8, 0x31#8, 0x28#8,
    0x34#8, 0x42#8, 0x33#8, 0x38#8, 0x29#8, 0x0D#8] (·.equipId) = some [0x34#8, 0x42#8, 0x33#8, 0x38#8] :=
  by decide +kernel
/-- `0-0:96.1.1(ABCD)X\r` -/
theorem line_t03_without_parenthesis : stored? [0x30#8, 0x2D#8, 0x30#8, 0x3A#8, 0x39#8, 0x36#8, 0x2E#8, 0x31#8,
    0x2E#8, 0x31#8, 0x28#8, 0x41#8, 0x42#8, 0x43#8, 0x44#8, 0x29#8, 0x58#8, 0x0D#8] (·.equipId) = some [0x41#8,
    0x42#8, 0x43#8, 0x44#8, 0x29#8] :=
  by decide +kernel
/-- `0-0:96.13.0(48454C)\r` -/
theorem line_t20 : stored? [0x30#8, 0x2D#8, 0x30#8, 0x3A#8, 0x39#8, 0x36#8, 0x2E#8, 0x31#8, 0x33#8, 0x2E#8, 0x30#8,
    0x28#8, 0x34#8, 0x38#8, 0x34#8, 0x35#8, 0x34#8, 0x43#8, 0x29#8, 0x0D#8] (·.msg) = some [0x34#8, 0x38#8, 0x34#8,
    0x35#8, 0x34#8, 0x43#8] :=
  by decide +kernel
/-- `1-0:99.97.0(2)(0-0:96.7.19)(101208152415W)(0000000240*s)(101208151004W)(0000000301*s)` -/
theorem line_t13 : stored? [0x31#8, 0x2D#8, 0x30#8, 0x3A#8, 0x39#8, 0x39#8, 0x2E#8, 0x39#8, 0x37#8, 0x2E#8, 0x30#8,
    0x28#8, 0x32#8, 0x29#8, 0x28#8, 0x30#8, 0x2D#8, 0x30#8, 0x3A#8, 0x39#8, 0x36#8, 0x2E#8, 0x37#8, 0x2E#8, 0x31#8,
    0x39#8, 0x29#8, 0x28#8, 0x31#8, 0x30#8, 0x31#8, 0x32#8, 0x30#8, 0x38#8, 0x31#8, 0x35#8, 0x32#8, 0x34#8, 0x31#8,
    0x35#8, 0x57#8, 0x29#8, 0x28#8, 0x30#8, 0x30#8, 0x30#8, 0x30#8, 0x30#8, 0x30#8, 0x30#8, 0x32#8, 0x34#8, 0x30#8,
    0x2A#8, 0x73#8, 0x29#8, 0x28#8, 0x31#8, 0x30#8, 0x31#8, 0x32#8, 0x30#8, 0x38#8, 0x31#8, 0x35#8, 0x31#8, 0x30#8,
    0x30#8, 0x34#8, 0x57#8, 0x29#8, 0x28#8, 0x30#8, 0x30#8, 0x30#8, 0x30#8, 0x30#8, 0x30#8, 0x30#8, 0x33#8, 0x30#8,
    0x31#8, 0x2A#8, 0x73#8, 0x29#8] (fun r => (r.pflogN, r.pflog.take 2)) = some (2, [⟨[0x31#8, 0x30#8, 0x31#8,
    0x32#8, 0x30#8, 0x38#8, 0x31#8, 0x35#8, 0x32#8, 0x34#8, 0x31#8, 0x35#8, 0x57#8], 240#32, 0#4⟩, ⟨[0x31#8, 0x30#8,
    0x31#8, 0x32#8, 0x30#8, 0x38#8, 0x31#8, 0x35#8, 0x31#8, 0x30#8, 0x30#8, 0x34#8, 0x57#8], 301#32, 0#4⟩]) :=
  by decide +kernel
/-- `1-0:99.97.0(2)(0-0:96.7.19)(101208152415W)(0000000240*s)(101208151004W)(x*s)` -/
theorem line_t13_stops_at_a_bad_entry : stored? [0x31#8, 0x2D#8, 0x30#8, 0x3A#8, 0x39#8, 0x39#8, 0x2E#8, 0x39#8,
    0x37#8, 0x2E#8, 0x30#8, 0x28#8, 0x32#8, 0x29#8, 0x28#8, 0x30#8, 0x2D#8, 0x30#8, 0x3A#8, 0x39#8, 0x36#8, 0x2E#8,
    0x37#8, 0x2E#8, 0x31#8, 0x39#8, 0x29#8, 0x28#8, 0x31#8, 0x30#8, 0x31#8, 0x32#8, 0x30#8, 0x38#8, 0x31#8, 0x35#8,
    0x32#8, 0x34#8, 0x31#8, 0x35#8, 0x57#8, 0x29#8, 0x28#8, 0x30#8, 0x30#8, 0x30#8, 0x30#8, 0x30#8, 0x30#8, 0x30#8,
    0x32#8, 0x34#8, 0x30#8, 0x2A#8, 0x73#8, 0x29#8, 0x28#8, 0x31#8, 0x30#8, 0x31#8, 0x32#8, 0x30#8, 0x38#8, 0x31#8,
    0x35#8, 0x31#8, 0x30#8, 0x30#8, 0x34#8, 0x57#8, 0x29#8, 0x28#8, 0x78#8, 0x2A#8, 0x73#8,
    0x29#8] (·.pflogN) = some 1 :=
  by decide +kernel
/-- `0-4:24.1.0(007)` -/
theorem line_t33 : stored? [0x30#8, 0x2D#8, 0x34#8, 0x3A#8, 0x32#8, 0x34#8, 0x2E#8, 0x31#8, 0x2E#8, 0x30#8, 0x28#8,
    0x30#8, 0x30#8, 0x37#8, 0x29#8] (fun r => r.dev[3]?.map (·.typeCode)) = some (some 7#32) :=
  by decide +kernel
/-- `0-0:24.1.0(003)` -/
theorem line_t33_ordinal_zero : stored? [0x30#8, 0x2D#8, 0x30#8, 0x3A#8, 0x32#8, 0x34#8, 0x2E#8, 0x31#8, 0x2E#8,
    0x30#8, 0x28#8, 0x30#8, 0x30#8, 0x33#8, 0x29#8] (·.dev) = some (List.replicate 4 defaultDevice) :=
  by decide +kernel
/-- `0-1:96.1.0(3232)\r` -/
theorem line_t34 : stored? [0x30#8, 0x2D#8, 0x31#8, 0x3A#8, 0x39#8, 0x36#8, 0x2E#8, 0x31#8, 0x2E#8, 0x30#8, 0x28#8,
    0x33#8, 0x32#8, 0x33#8, 0x32#8, 0x29#8, 0x0D#8] (fun r => r.dev[0]?.map (·.equipId)) = some (some [0x33#8,
    0x32#8, 0x33#8, 0x32#8]) :=
  by decide +kernel
/-- `0-1:24.2.1(101209112500W)(12785.123*m3)` -/
theorem line_t35 : stored? [0x30#8, 0x2D#8, 0x31#8, 0x3A#8, 0x32#8, 0x34#8, 0x2E#8, 0x32#8, 0x2E#8, 0x31#8, 0x28#8,
    0x31#8, 0x30#8, 0x31#8, 0x32#8, 0x30#8, 0x39#8, 0x31#8, 0x31#8, 0x32#8, 0x35#8, 0x30#8, 0x30#8, 0x57#8, 0x29#8,
    0x28#8, 0x31#8, 0x32#8, 0x37#8, 0x38#8, 0x35#8, 0x2E#8, 0x31#8, 0x32#8, 0x33#8, 0x2A#8, 0x6D#8, 0x33#8,
    0x29#8] (fun r => r.dev[0]?) = some (some ⟨0#32, [], [0x31#8, 0x30#8, 0x31#8, 0x32#8, 0x30#8, 0x39#8, 0x31#8,
    0x31#8, 0x32#8, 0x35#8, 0x30#8, 0x30#8, 0x57#8], 12785123#32, [0x6D#8, 0x33#8]⟩) :=
  by decide +kernel
/-- `0-1:24.2.1(1012091125)(12785.123*m3)` -/
theorem line_t35_short_stamp : stored? [0x30#8, 0x2D#8, 0x31#8, 0x3A#8, 0x32#8, 0x34#8, 0x2E#8, 0x32#8, 0x2E#8,
    0x31#8, 0x28#8, 0x31#8, 0x30#8, 0x31#8, 0x32#8, 0x30#8, 0x39#8, 0x31#8, 0x31#8, 0x32#8, 0x35#8, 0x29#8, 0x28#8,
    0x31#8, 0x32#8, 0x37#8, 0x38#8, 0x35#8, 0x2E#8, 0x31#8, 0x32#8, 0x33#8, 0x2A#8, 0x6D#8, 0x33#8,
    0x29#8] (fun r => r.dev[0]?.map (·.rdTs)) = some (some [0x31#8, 0x30#8, 0x31#8, 0x32#8, 0x30#8, 0x39#8, 0x31#8,
    0x31#8, 0x32#8, 0x35#8, 0x29#8, 0x28#8, 0x31#8]) :=
  by decide +kernel

/-- V52: one `0x0D` is removed. -/
theorem header_strips_one_return :
    (after? (exec (.header [0x41#8, 0x42#8, 0x0D#8, 0x0D#8]) State.reset)).map (·.record.hdr) = some [0x41#8, 0x42#8,
        0x0D#8] :=
      by decide +kernel

theorem unrecognised_changes_nothing : exec (.unrecognised [0x41#8]) State.reset = .next State.reset := rfl

/-- V50: the empty header's frame and its checksum. -/
theorem endline_compares :
    (after? (exec (.endline 0x41#8 0x46#8 0x35#8 0x46#8 0x0D#8 0x0A#8) (loadFrame [0x2F#8, 0x0D#8, 0x0A#8, 0x21#8,
        0x41#8, 0x46#8, 0x35#8, 0x46#8, 0x0D#8, 0x0A#8] State.reset))).map
      (fun s => (s.record.crcTx, s.record.crcCalc, s.record.crcValid)) = some (0xAF5F#16, 0xAF5F#16, true) := by
  decide +kernel

/-- V12, V13 (40_crc.md). -/
theorem crc16_of_nine_digits : crc16 [0x31#8, 0x32#8, 0x33#8, 0x34#8, 0x35#8, 0x36#8, 0x37#8, 0x38#8,
    0x39#8] = 0xBB3D#16 :=
  by decide +kernel
theorem crc16_of_a_frame : crc16 [0x2F#8, 0x48#8, 0x0D#8, 0x0A#8, 0x21#8] = 0x1D95#16 := by decide +kernel

/-- V15. -/
theorem poll_discards_before_the_marker :
    (after? (exec .poll (State.reset.withQ [0x61#8, 0x62#8, 0x21#8, 0x78#8, 0x79#8, 0x7A#8]))).map (fun s => (s.st,
        s.len, s.rts)) =
      some (.idle, 0, .high) := by decide +kernel

/-- V17: Ready is reached inside the poll, the rest stays unread. -/
theorem poll_stops_at_ready :
    (after? (exec .poll (State.reset.withQ [0x61#8, 0x62#8, 0x2F#8, 0x48#8, 0x0D#8, 0x0A#8, 0x21#8, 0x30#8, 0x30#8,
        0x30#8, 0x30#8, 0x0D#8, 0x0A#8, 0x5A#8]))).map
      (fun s => (s.st, s.len, s.rts, s.q, s.frame)) =
      some (.ready, 11, .hiZ, [0x5A#8], [0x2F#8, 0x48#8, 0x0D#8, 0x0A#8, 0x21#8, 0x30#8, 0x30#8, 0x30#8, 0x30#8,
          0x0D#8, 0x0A#8]) :=
        by decide +kernel

/-- V52 (header) and V55 (sub-device count), through PARSE. -/
theorem parse_header_and_count :
    parsed? [0x2F#8, 0x49#8, 0x53#8, 0x6B#8, 0x35#8, 0x2D#8, 0x31#8, 0x30#8, 0x30#8, 0x30#8, 0x0D#8, 0x0A#8, 0x21#8,
        0x30#8, 0x30#8, 0x30#8, 0x30#8, 0x0D#8, 0x0A#8] (fun s => (s.record.hdr, s.record.devN, s.st, s.len)) =
      some ([0x49#8, 0x53#8, 0x6B#8, 0x35#8, 0x2D#8, 0x31#8, 0x30#8, 0x30#8, 0x30#8], 4, .idle, 0) := by decide +kernel

/-- V220, V221: malformed checksum characters. -/
theorem parse_malformed_checksum :
    parsed? [0x2F#8, 0x48#8, 0x0D#8, 0x0A#8, 0x21#8, 0x7A#8, 0x7A#8, 0x7A#8, 0x7A#8, 0x0D#8,
        0x0A#8] (fun s => (s.err, s.record.crcTx, s.record.crcCalc, s.record.crcValid)) =
      some (⟨false, true, false⟩, 0#16, 0x1D95#16, false) := by decide +kernel

/-- V28, V29. -/
theorem abort_in_assembling :
    (after? (exec .abort (assemblingWith [0x2F#8, 0x48#8]))).map (fun s => (s.st, s.len, s.err.bits)) =
      some (.idle, 0, 4#3) := by decide +kernel
theorem abort_in_idle : exec .abort State.reset = .next State.reset := rfl

theorem errclr_clears :
    (after? (exec .errclr (State.reset.withErr ⟨true, false, true⟩))).map (·.err.bits) = some 0#3 := by decide +kernel

/-- V222. -/
theorem rst_in_assembling : (after? (exec .rst (assemblingWith [0x2F#8, 0x61#8, 0x62#8,
    0x63#8]))).map (fun s => (s.st, s.len, s.err)) =
    some (.idle, 0, ⟨false, false, false⟩) := by decide +kernel

/-- V211, V213, V215: `STATUS`. -/
theorem status_idle_high : (State.reset.withRts .high).statusWord = 0x18#8 := by decide +kernel
theorem status_ready : (readyWith [0x2F#8, 0x48#8, 0x0D#8, 0x0A#8, 0x21#8, 0x30#8, 0x30#8, 0x30#8, 0x30#8, 0x0D#8,
    0x0A#8]).statusWord = 0x16#8 :=
  by decide +kernel

theorem rd_err_bits : exec .rdErr (State.reset.withErr ⟨true, false, true⟩) =
    .next ((State.reset.withErr ⟨true, false, true⟩).withOut (.err 5#3)) := rfl

theorem rd_len_of_a_partial_frame :
    (after? (exec .rdLen (assemblingWith [0x2F#8, 0x48#8]))).map (·.out) = some (.number 2) := by decide +kernel

/-- V213: below and at `LEN`. -/
theorem rd_buf_below_len :
    (after? (exec (.rdBuf 3) (assemblingWith [0x2F#8, 0x48#8, 0x0D#8, 0x0A#8]))).map (·.out) = some (.byte 0x0A#8) :=
      by decide +kernel
theorem rd_buf_at_len :
    (after? (exec (.rdBuf 4) (assemblingWith [0x2F#8, 0x48#8, 0x0D#8, 0x0A#8]))).map (·.out) = some (.byte 0x00#8) :=
      by decide +kernel

/-- V210. -/
theorem rd_rec_stamp : (after? (exec (.rdRec .ts) State.reset)).map (·.out) =
    some (.text (List.replicate 13 0x00#8)) := by decide +kernel
theorem rd_cfg_cap : (after? (exec (.rdCfg .cap) State.reset)).map (·.out) = some (.number 1024) := by decide +kernel

/-- V14. -/
theorem arm_raises : (after? (exec .arm State.reset)).map (·.rts) = some .high := by decide +kernel
theorem arm_in_ready : (after? (exec .arm (readyWith [0x2F#8, 0x21#8, 0x30#8, 0x30#8, 0x30#8, 0x30#8, 0x0D#8,
    0x0A#8]))).map (·.rts) = some .hiZ := by
  decide +kernel

theorem rx_idle_other_discards : exec (.rxIdleOther 0x21#8) State.reset = .next State.reset := rfl

/-- V16. -/
theorem rx_idle_start : (after? (exec .rxIdleStart State.reset)).map (fun s => (s.st, s.len, s.buf)) =
    some (.assembling, 1, [(0, 0x2F#8)]) := by decide +kernel

/-- R153's worked example, and its corner case (a). -/
theorem rx_append_completes :
    (after? (exec (.rxAppend 0x0A#8) (assemblingWith [0x2F#8, 0x48#8, 0x0D#8, 0x0A#8, 0x21#8, 0x30#8, 0x30#8, 0x30#8,
        0x30#8, 0x0D#8]))).map (fun s => (s.st, s.len)) =
      some (.ready, 11) := by decide +kernel
theorem rx_append_stores_a_start_marker :
    (after? (exec (.rxAppend 0x2F#8) (assemblingWith [0x2F#8, 0x48#8]))).map (fun s => (s.st, s.frame)) =
      some (.assembling, [0x2F#8, 0x48#8, 0x2F#8]) := by decide +kernel

/-- V19, V20: the overflowing byte. -/
theorem rx_overflow_other :
    (after? (exec (.rxOverflow 0x79#8) (assemblingWith [0x2F#8, 0x78#8, 0x78#8, 0x78#8, 0x78#8, 0x78#8, 0x78#8,
        0x78#8, 0x78#8, 0x78#8, 0x78#8, 0x78#8]))).map (fun s => (s.st, s.len, s.err.ovf)) =
      some (.idle, 0, true) := by decide +kernel
theorem rx_overflow_start :
    (after? (exec (.rxOverflow 0x2F#8) (assemblingWith [0x2F#8, 0x78#8, 0x78#8, 0x78#8, 0x78#8, 0x78#8, 0x78#8,
        0x78#8, 0x78#8, 0x78#8, 0x78#8, 0x78#8]))).map (fun s => (s.st, s.frame, s.err.ovf)) =
      some (.assembling, [0x2F#8], true) := by decide +kernel

/-- The first instruction after reset, placed by its table word. -/
theorem step_runs_a_placed_host_operation :
    (after? (step (State.reset.withFetchWord 8 0x01))).map (·.rts) = some .high := by decide +kernel
theorem step_runs_a_placed_line :
    (after? (step (State.reset.withFetchWord 72 0x382E322E303A332D31))).map (·.act) = some (.parsing 12 2) := by
  decide +kernel

/-! ## Witnesses: states and operands that meet the hypotheses of the statements -/

/-- A state with the default record is sound when the assembler's invariants hold of it. -/
theorem sound_of {s : State} (hc : s.cfg.wf = true) (hm : s.buf.wf = true) (hr : s.record = defaultRecord s.cfg)
    (hl : s.len ≤ s.cfg.cap) (hi : s.st = .idle ↔ s.len = 0) (h0 : s.st ≠ .idle → s.buf.read 0 = startMarker)
    (hu : s.st = .assembling → ∀ k, k < s.len - 6 → s.buf.read k ≠ endMarker)
    (hq : s.st = .ready → 8 ≤ s.len ∧ s.buf.read (s.len - 7) = endMarker ∧ ∀ k,
        k < s.len - 7 → s.buf.read k ≠ endMarker)
    (hz : s.rts = .hiZ) : Sound s :=
  ⟨hc, hm, ⟨hl, hi, h0, fun h k hk => hu h k (by omega), hq, fun _ => hz, fun _ => hz⟩,
      by rw [hr]; exact recordWf_default _⟩

/-- `/H\r\n!0000\r\n`, of 11 bytes, Ready. -/
def ready : State := readyWith [0x2F#8, 0x48#8, 0x0D#8, 0x0A#8, 0x21#8, 0x30#8, 0x30#8, 0x30#8, 0x30#8, 0x0D#8, 0x0A#8]

/-- The same with malformed checksum characters. -/
def readyMalformed : State := readyWith [0x2F#8, 0x48#8, 0x0D#8, 0x0A#8, 0x21#8, 0x7A#8, 0x7A#8, 0x7A#8, 0x7A#8,
    0x0D#8, 0x0A#8]

/-- The shortest frame, its header ended by the end marker. -/
def readyShortest : State := readyWith [0x2F#8, 0x21#8, 0x30#8, 0x30#8, 0x30#8, 0x30#8, 0x0D#8, 0x0A#8]

/-- A header with a sub-device count, without `0x0D`. -/
def readyCount : State := readyWith [0x2F#8, 0x2D#8, 0x33#8, 0x0A#8, 0x21#8, 0x30#8, 0x30#8, 0x30#8, 0x30#8, 0x0D#8,
    0x0A#8]

/-- A partial frame. -/
def partialFrame : State := assemblingWith [0x2F#8, 0x48#8]

/-- A partial frame that fills the buffer. -/
def fullFrame : State := assemblingWith [0x2F#8, 0x78#8, 0x78#8, 0x78#8, 0x78#8, 0x78#8, 0x78#8, 0x78#8, 0x78#8,
    0x78#8, 0x78#8, 0x78#8]

theorem small_sound : Sound small := by
  apply sound_of <;> decide +kernel
theorem ready_sound : Sound ready := by
  apply sound_of <;> decide +kernel
theorem readyMalformed_sound : Sound readyMalformed := by
  apply sound_of <;> decide +kernel
theorem readyShortest_sound : Sound readyShortest := by
  apply sound_of <;> decide +kernel
theorem readyCount_sound : Sound readyCount := by
  apply sound_of <;> decide +kernel
theorem partialFrame_sound : Sound partialFrame := by
  apply sound_of <;> decide +kernel
theorem fullFrame_sound : Sound fullFrame := by
  apply sound_of <;> decide +kernel

theorem witness_PowerOnStateIsWhatRstProduces : ∃ t, exec .rst partialFrame = .next t := ⟨_, rfl⟩

theorem witness_IdleDiscardsBytesUntilTheStartMarker :
    small.st = .idle ∧ 0x21#8 ≠ 0x2F#8 ∧ 0 < small.cfg.cap := by decide +kernel

/-- Not yet complete, and complete at the last free byte. -/
theorem witness_AppendStoresAtLenAndTestsTheLookback :
    (partialFrame.buf.wf = true ∧ partialFrame.st = .assembling ∧ partialFrame.len < partialFrame.cfg.cap) ∧
    ∃ s : State, s.buf.wf = true ∧ s.st = .assembling ∧ s.len + 1 = s.cfg.cap ∧ s.buf.read (s.len + 1 - 7) = 0x21#8 :=
  ⟨by decide +kernel, assemblingWith [0x2F#8, 0x78#8, 0x78#8, 0x78#8, 0x78#8, 0x21#8, 0x30#8, 0x30#8, 0x30#8, 0x30#8,
      0x0D#8], by decide +kernel⟩

theorem witness_OverflowDiscardsTheFrame :
    fullFrame.st = .assembling ∧ fullFrame.len = fullFrame.cfg.cap ∧ 0 < fullFrame.cfg.cap ∧ 0x79#8 ≠ 0x2F#8 := by
  decide +kernel

theorem witness_RxCasesAreEnabledOnlyUnderTheirConditions :
    ¬(small.st = .idle ∧ 0x2F#8 ≠ 0x2F#8) ∧ partialFrame.st ≠ .idle ∧
    ¬(fullFrame.st = .assembling ∧ fullFrame.len < fullFrame.cfg.cap) ∧
    ¬(partialFrame.st = .assembling ∧ partialFrame.cfg.cap ≤ partialFrame.len) ∧ ready.st = .ready := by decide +kernel

theorem witness_PollEndsReadyOrDrained : ∃ s, Sound s ∧ s.st = .assembling := ⟨partialFrame, partialFrame_sound, rfl⟩

/-- The body fills the buffer. -/
theorem witness_PollAssemblesAWholeTelegram :
    small.buf.wf = true ∧ small.st = .idle ∧ 0x2F#8 ∉ [0x61#8] ∧ 0x21#8 ∉ [0x48#8, 0x0D#8, 0x0A#8, 0x2D#8] ∧
    [0x30#8, 0x30#8, 0x30#8, 0x30#8, 0x0D#8, 0x0A#8].length = 6 ∧ [0x48#8, 0x0D#8, 0x0A#8,
        0x2D#8].length + 8 ≤ small.cfg.cap ∧
    (small.withQ [0x61#8, 0x2F#8, 0x48#8, 0x0D#8, 0x0A#8, 0x2D#8, 0x21#8, 0x30#8, 0x30#8, 0x30#8, 0x30#8, 0x0D#8,
        0x0A#8, 0x5A#8]).q =
      [0x61#8] ++ 0x2F#8 :: [0x48#8, 0x0D#8, 0x0A#8, 0x2D#8] ++ 0x21#8 :: [0x30#8, 0x30#8, 0x30#8, 0x30#8, 0x0D#8,
          0x0A#8] ++ [0x5A#8] :=
        by decide +kernel

theorem witness_NothingIsStoredAtOrAboveCapacity :
    ∃ t, exec .errclr fullFrame = .next t ∧ fullFrame.cfg.cap ≤ 12 := ⟨_, rfl, by decide +kernel⟩

/-- The last byte of the buffer; the first and last unused code of the index port; the first index beyond it. -/
theorem witness_RdBufReadsTheFrameAndZeroAboveIt :
    11 < small.cfg.cap ∧ small.cfg.cap ≤ 12 ∧ 2 ^ 4 < 2 * small.cfg.cap ∧ small.cfg.cap ≤ 2 ^ 4 ∧ 15 < 2 ^ 4 ∧
      2 ^ 4 ≤ 16 := by decide +kernel

theorem witness_RdRecReturnsTheNamedField :
    RecordWf small.cfg small.record ∧ 9 < small.cfg.npf ∧ small.cfg.npf ≤ 10 ∧ 3 < small.cfg.nsub ∧
      small.cfg.nsub ≤ 4 := ⟨recordWf_default _, by decide +kernel⟩

theorem witness_ConfigurationIsReadableAndConstant : ∃ t, exec .poll small = .next t := ⟨_, rfl⟩

theorem witness_ParseIsIgnoredUnlessReady : small.st ≠ .ready ∧ partialFrame.st ≠ .ready := by decide +kernel

theorem witness_ParseAlwaysEndsIdleAndEmpty :
    ready.st = .ready ∧ ready.len ≤ ready.cfg.cap ∧ (ready.withErr ⟨false, true, false⟩).err.sig = true := by
  decide +kernel

theorem witness_ParseForgetsThePreviousRecord : ready.st = .ready := rfl

theorem witness_ParseComparesTheChecksums :
    (Sound ready ∧ ready.st = .ready ∧ hex4 0x30#8 0x30#8 0x30#8 0x30#8 = some 0#16 ∧
      ready.buf.range (ready.len - 6) 4 = [0x30#8, 0x30#8, 0x30#8, 0x30#8]) ∧
    (Sound readyMalformed ∧ readyMalformed.st = .ready ∧ hex4 0x7A#8 0x7A#8 0x7A#8 0x7A#8 = none ∧
      readyMalformed.buf.range (readyMalformed.len - 6) 4 = [0x7A#8, 0x7A#8, 0x7A#8, 0x7A#8]) :=
  ⟨⟨ready_sound, by decide +kernel⟩, readyMalformed_sound, by decide +kernel⟩

/-- A header ended by `0x0D 0x0A`, by `0x0A` alone, and by the end marker. -/
theorem witness_ParseStoresTheHeaderText :
    (Sound ready ∧ ready.st = .ready ∧
      ready.frame = 0x2F#8 :: [0x48#8] ++ 0x0D#8 :: 0x0A#8 :: [0x21#8, 0x30#8, 0x30#8, 0x30#8, 0x30#8, 0x0D#8,
          0x0A#8]) ∧
    (Sound readyCount ∧ readyCount.st = .ready ∧ [0x2D#8, 0x33#8].getLast? ≠ some 0x0D#8 ∧
      readyCount.frame = 0x2F#8 :: [0x2D#8, 0x33#8] ++ 0x0A#8 :: [0x21#8, 0x30#8, 0x30#8, 0x30#8, 0x30#8, 0x0D#8,
          0x0A#8]) ∧
    Sound readyShortest ∧ readyShortest.st = .ready ∧ ([] : List Byte).getLast? ≠ some 0x0D#8 ∧
      readyShortest.frame = 0x2F#8 :: [] ++ 0x21#8 :: [0x30#8, 0x30#8, 0x30#8, 0x30#8, 0x0D#8, 0x0A#8] :=
  ⟨⟨ready_sound, by decide +kernel⟩, ⟨readyCount_sound, by decide +kernel⟩, readyShortest_sound, by decide +kernel⟩

theorem witness_ParseCountsTheSubDevices :
    (Sound ready ∧ ready.st = .ready ∧ ready.frame = [0x2F#8, 0x48#8, 0x0D#8, 0x0A#8] ++ 0x21#8 :: [0x30#8, 0x30#8,
        0x30#8, 0x30#8, 0x0D#8, 0x0A#8] ∧
      0x2D#8 ∉ [0x2F#8, 0x48#8, 0x0D#8, 0x0A#8]) ∧
    Sound readyCount ∧ readyCount.st = .ready ∧ readyCount.frame = [0x2F#8, 0x2D#8, 0x33#8,
        0x0A#8] ++ 0x21#8 :: [0x30#8, 0x30#8, 0x30#8, 0x30#8, 0x0D#8, 0x0A#8] ∧
      0x21#8 ∉ [0x2F#8, 0x2D#8, 0x33#8, 0x0A#8] ∧ [0x2F#8, 0x2D#8, 0x33#8,
          0x0A#8] = [0x2F#8] ++ 0x2D#8 :: [0x33#8] ++ [0x0A#8] ∧ AllDigits [0x33#8] ∧
      RunEnds [0x0A#8] :=
  ⟨⟨ready_sound, by decide +kernel⟩, readyCount_sound, by decide +kernel, by decide +kernel, by decide +kernel,
      by decide +kernel,
    by unfold AllDigits; decide, runEnds_cons _ (by decide)⟩

/-- No line stores a log; and one does, after which the first and the last slot above `PFLOG_N` are asked for. -/
theorem witness_ParseKeepsTheLastNumberOfEachField :
    (ready.st = .ready ∧ ready.len ≤ ready.cfg.cap ∧
      ((frameProgram ready.cfg.tagtab ready.frame).filterMap (stores ready.cfg)).filterMap Store.count? = []) ∧
    ∃ s : State, s.st = .ready ∧ s.len ≤ s.cfg.cap ∧
      ((frameProgram s.cfg.tagtab s.frame).filterMap (stores s.cfg)).filterMap Store.count? = [1] ∧
      (after? (exec .parse s)).map (·.record.pflogN) = some 1 ∧ 1 < s.cfg.npf ∧ 9 < s.cfg.npf :=
  ⟨by decide +kernel, loadFrame [0x2F#8, 0x48#8, 0x0A#8, 0x31#8, 0x2D#8, 0x30#8, 0x3A#8, 0x39#8, 0x39#8, 0x2E#8,
        0x39#8, 0x37#8, 0x2E#8, 0x30#8, 0x28#8, 0x31#8, 0x29#8, 0x28#8, 0x30#8, 0x2D#8, 0x30#8, 0x3A#8, 0x39#8,
        0x36#8, 0x2E#8, 0x37#8, 0x2E#8, 0x31#8, 0x39#8, 0x29#8, 0x28#8, 0x31#8, 0x30#8, 0x31#8, 0x32#8, 0x30#8,
        0x38#8, 0x31#8, 0x35#8, 0x32#8, 0x34#8, 0x31#8, 0x35#8, 0x57#8, 0x29#8, 0x28#8, 0x32#8, 0x34#8, 0x30#8,
        0x2E#8, 0x35#8, 0x30#8, 0x2A#8, 0x73#8, 0x29#8, 0x0A#8, 0x21#8, 0x30#8, 0x30#8, 0x30#8, 0x30#8, 0x0D#8,
        0x0A#8] State.reset,
    by decide +kernel⟩

theorem witness_LinesWriteOnlyTheRecord :
    (Instr.t02Ts []).port = .line ∧ (Instr.header []).port = .line0 := ⟨rfl, rfl⟩

theorem witness_RowsWithoutAGroupSkip : 0x28#8 ∉ [0x32#8, 0x32#8, 0x30#8, 0x31#8, 0x30#8, 0x31#8] := by decide

/-- No digit, and the largest and the smallest numeral on each side of the bound. -/
theorem witness_IntRowsStoreTheDigitRun :
    0x28#8 ∉ ([] : List Byte) ∧ RunEnds [0x29#8] ∧ RunEnds [] ∧ AllDigits [] ∧
    (AllDigits [0x34#8, 0x32#8, 0x39#8, 0x34#8, 0x39#8, 0x36#8, 0x37#8, 0x32#8, 0x39#8, 0x35#8] ∧ dec [0x34#8,
        0x32#8, 0x39#8, 0x34#8, 0x39#8, 0x36#8, 0x37#8, 0x32#8, 0x39#8, 0x35#8] < 2 ^ 32) ∧
    AllDigits [0x34#8, 0x32#8, 0x39#8, 0x34#8, 0x39#8, 0x36#8, 0x37#8, 0x32#8, 0x39#8, 0x36#8] ∧ ¬dec [0x34#8,
        0x32#8, 0x39#8, 0x34#8, 0x39#8, 0x36#8, 0x37#8, 0x32#8, 0x39#8, 0x36#8] < 2 ^ 32 :=
  ⟨by decide, runEnds_cons _ (by decide), runEnds_nil, by unfold AllDigits; decide,
    ⟨by unfold AllDigits; decide, by decide +kernel⟩, by unfold AllDigits; decide, by decide +kernel⟩

theorem witness_FixRowsStoreTheScaledNumber :
    0x28#8 ∉ [0x20#8] ∧ AllDigits [0x30#8, 0x31#8] ∧ AllDigits [0x31#8, 0x39#8, 0x33#8] ∧ [0x31#8, 0x39#8,
        0x33#8] ≠ [] ∧
    dec ([0x30#8, 0x31#8] ++ [0x31#8, 0x39#8, 0x33#8]) < 2 ^ 32 ∧ AllDigits [0x34#8, 0x32#8, 0x39#8, 0x34#8, 0x39#8,
        0x36#8, 0x37#8] ∧ AllDigits [0x32#8, 0x39#8, 0x36#8] ∧
    ¬dec ([0x34#8, 0x32#8, 0x39#8, 0x34#8, 0x39#8, 0x36#8, 0x37#8] ++ [0x32#8, 0x39#8, 0x36#8]) < 2 ^ 32 := by
  unfold AllDigits
  decide +kernel

/-- A bad whole digit, too few bytes (`F = 0` and `F > 0`), a misplaced point, a bad fraction digit. -/
theorem witness_FixRowsSkipMalformedNumerals :
    NoFixNumeral 2 3 [0x61#8, 0x31#8, 0x2E#8, 0x31#8, 0x39#8, 0x33#8] ∧ NoFixNumeral 2 0 [0x31#8] ∧ NoFixNumeral 2 3
        [0x30#8, 0x31#8, 0x2E#8, 0x31#8, 0x39#8] ∧
    NoFixNumeral 2 3 [0x31#8, 0x2E#8, 0x31#8, 0x39#8, 0x33#8, 0x30#8] ∧ NoFixNumeral 2 3 [0x30#8, 0x31#8, 0x2E#8,
        0x31#8, 0x39#8, 0x61#8] :=
  ⟨.inl ⟨0, 0x61#8, by decide⟩, .inr (by rw [if_pos rfl]; decide),
    .inr (by rw [if_neg (by decide)]; exact .inl (by decide)),
    .inr (by rw [if_neg (by decide)]; exact .inr (.inl (by decide))),
    .inr (by rw [if_neg (by decide)]; exact .inr (.inr ⟨5, 0x61#8, by decide⟩))⟩

theorem witness_NumericFieldsDoNotAlias : NumDest.eDelT1 ≠ NumDest.eDelT2 := by decide

theorem witness_TextRowsCopyTheirBytes :
    0x28#8 ∉ [0x20#8] ∧ 13 ≤ [0x32#8, 0x32#8, 0x30#8, 0x31#8, 0x30#8, 0x31#8, 0x31#8, 0x32#8, 0x30#8, 0x30#8, 0x30#8,
        0x30#8, 0x57#8].length ∧ ¬13 ≤ [0x32#8, 0x32#8, 0x30#8, 0x31#8, 0x30#8, 0x31#8, 0x31#8, 0x32#8, 0x30#8,
        0x30#8, 0x30#8, 0x29#8].length ∧
    [0x29#8].length < 2 := by decide

/-- The count, a skipped group, and two entries, the second with its second `'('` among the 13 bytes of its stamp. -/
theorem witness_PowerFailureLogRowStoresItsEntries :
    0x28#8 ∉ ([] : List Byte) ∧ AllDigits [0x31#8] ∧ [0x31#8] ≠ [] ∧ 0x28#8 ∉ [0x29#8] ∧ RunEnds [0x29#8] ∧
    [[0x30#8]].length = small.cfg.pflogSkip ∧ (∀ t ∈ [[0x30#8]], 0x28#8 ∉ t) ∧
    LogText.Ok ⟨[0x31#8, 0x30#8, 0x31#8, 0x32#8, 0x30#8, 0x38#8, 0x31#8, 0x35#8, 0x32#8, 0x34#8, 0x31#8, 0x35#8,
        0x57#8, 0x29#8], [0x32#8, 0x34#8, 0x30#8], [0x35#8, 0x30#8], [0x2A#8, 0x73#8, 0x29#8]⟩ ∧ LogText.Ok ⟨[0x31#8,
        0x30#8, 0x31#8, 0x32#8, 0x30#8, 0x38#8], [0x31#8, 0x35#8, 0x32#8, 0x34#8, 0x31#8, 0x35#8], [], [0x57#8,
        0x29#8]⟩ ∧
    ∀ i, i < 2 → 13 < (logWire (List.drop i [⟨[0x31#8, 0x30#8, 0x31#8, 0x32#8, 0x30#8, 0x38#8, 0x31#8, 0x35#8,
        0x32#8, 0x34#8, 0x31#8, 0x35#8, 0x57#8, 0x29#8], [0x32#8, 0x34#8, 0x30#8], [0x35#8, 0x30#8], [0x2A#8, 0x73#8,
        0x29#8]⟩, ⟨[0x31#8, 0x30#8, 0x31#8, 0x32#8, 0x30#8, 0x38#8], [0x31#8, 0x35#8, 0x32#8, 0x34#8, 0x31#8,
        0x35#8], [], [0x57#8, 0x29#8]⟩]) []).length :=
  ⟨by decide, by unfold AllDigits; decide, by decide, by decide, runEnds_cons _ (by decide), by decide +kernel, by
        decide,
    ⟨by decide, by unfold AllDigits; decide, by unfold AllDigits; decide, by decide +kernel, by decide,
      runEnds_cons _ (by decide), fun h => absurd h (by decide)⟩,
    ⟨by decide, by unfold AllDigits; decide, by unfold AllDigits; decide, by decide +kernel, by decide,
      runEnds_cons _ (by decide), fun _ t h => absurd (congrArg List.head? h) (by simp [fullStop])⟩,
    by decide +kernel⟩

/-- Nothing, a short stamp, no second group; no digit, `2^32`, and 16 fraction digits behind the second. -/
theorem witness_NoEntry :
    NoEntry [] ∧ NoEntry [0x28#8, 0x31#8] ∧ NoEntry [0x28#8, 0x31#8, 0x30#8, 0x31#8, 0x32#8, 0x30#8, 0x38#8, 0x31#8,
        0x35#8, 0x32#8, 0x34#8, 0x31#8, 0x35#8, 0x57#8, 0x29#8] ∧ NoEntry [0x28#8, 0x31#8, 0x30#8, 0x31#8, 0x32#8,
        0x30#8, 0x38#8, 0x31#8, 0x35#8, 0x32#8, 0x34#8, 0x31#8, 0x35#8, 0x57#8, 0x29#8, 0x28#8, 0x2A#8, 0x73#8,
        0x29#8] ∧
    NoEntry [0x28#8, 0x31#8, 0x30#8, 0x31#8, 0x32#8, 0x30#8, 0x38#8, 0x31#8, 0x35#8, 0x32#8, 0x34#8, 0x31#8, 0x35#8,
        0x57#8, 0x29#8, 0x28#8, 0x34#8, 0x32#8, 0x39#8, 0x34#8, 0x39#8, 0x36#8, 0x37#8, 0x32#8, 0x39#8, 0x36#8,
        0x2A#8, 0x73#8, 0x29#8] ∧
    NoEntry [0x28#8, 0x31#8, 0x30#8, 0x31#8, 0x32#8, 0x30#8, 0x38#8, 0x31#8, 0x35#8, 0x32#8, 0x34#8, 0x31#8, 0x35#8,
        0x57#8, 0x29#8, 0x28#8, 0x30#8, 0x2E#8, 0x30#8, 0x30#8, 0x30#8, 0x30#8, 0x30#8, 0x30#8, 0x30#8, 0x30#8,
        0x30#8, 0x30#8, 0x30#8, 0x30#8, 0x30#8, 0x30#8, 0x30#8, 0x30#8, 0x2A#8, 0x73#8, 0x29#8] :=
  ⟨.inl rfl, .inr ⟨_, rfl, .inl (by decide)⟩, .inr ⟨_, rfl, .inr (.inl (by decide))⟩,
    .inr ⟨_, rfl, .inr (.inr ⟨[0x31#8, 0x30#8, 0x31#8, 0x32#8, 0x30#8, 0x38#8, 0x31#8, 0x35#8, 0x32#8, 0x34#8,
        0x31#8, 0x35#8, 0x57#8, 0x29#8], [0x2A#8, 0x73#8, 0x29#8], by decide, by decide, .inl (runEnds_cons _ (by
        decide))⟩)⟩,
    .inr ⟨_, rfl, .inr (.inr ⟨[0x31#8, 0x30#8, 0x31#8, 0x32#8, 0x30#8, 0x38#8, 0x31#8, 0x35#8, 0x32#8, 0x34#8,
        0x31#8, 0x35#8, 0x57#8, 0x29#8], [0x34#8, 0x32#8, 0x39#8, 0x34#8, 0x39#8, 0x36#8, 0x37#8, 0x32#8, 0x39#8,
        0x36#8, 0x2A#8, 0x73#8, 0x29#8], by decide, by decide,
      .inr ⟨[0x34#8, 0x32#8, 0x39#8, 0x34#8, 0x39#8, 0x36#8, 0x37#8, 0x32#8, 0x39#8, 0x36#8], [0x2A#8, 0x73#8,
        0x29#8], by unfold AllDigits; decide, runEnds_cons _ (by decide),
        .inl ⟨by decide, by decide, by decide +kernel⟩⟩⟩)⟩,
    .inr ⟨_, rfl, .inr (.inr ⟨[0x31#8, 0x30#8, 0x31#8, 0x32#8, 0x30#8, 0x38#8, 0x31#8, 0x35#8, 0x32#8, 0x34#8,
        0x31#8, 0x35#8, 0x57#8, 0x29#8], [0x30#8, 0x2E#8, 0x30#8, 0x30#8, 0x30#8, 0x30#8, 0x30#8, 0x30#8, 0x30#8,
        0x30#8, 0x30#8, 0x30#8, 0x30#8, 0x30#8, 0x30#8, 0x30#8, 0x30#8, 0x30#8, 0x2A#8, 0x73#8, 0x29#8], by decide,
        by decide,
      .inr ⟨[0x30#8], [0x2A#8, 0x73#8, 0x29#8], by unfold AllDigits; decide, runEnds_cons _ (by decide),
        .inr ⟨[0x30#8, 0x30#8, 0x30#8, 0x30#8, 0x30#8, 0x30#8, 0x30#8, 0x30#8, 0x30#8, 0x30#8, 0x30#8, 0x30#8,
        0x30#8, 0x30#8, 0x30#8, 0x30#8], by unfold AllDigits; decide, by decide, .inr (by decide)⟩⟩⟩)⟩⟩

theorem witness_PowerFailureLogRowSkipsWithoutItsGroups :
    RunEnds [0x29#8] ∧ [0x32#8, 0x29#8].count 0x28#8 < small.cfg.pflogSkip := ⟨runEnds_cons _ (by decide),
        by decide +kernel⟩

theorem witness_OrdinalOutOfRangeIsDropped : (0 : Nat) = 0 ∧ small.cfg.nsub < 5 := by decide +kernel

/-- The first and the last slot. -/
theorem witness_DeviceTypeAndIdRowsWriteTheirSlot :
    small.record.dev.length = small.cfg.nsub ∧ 4 ≤ small.cfg.nsub ∧
    small.record.dev[1 - 1]? = some defaultDevice ∧ small.record.dev[4 - 1]? = some defaultDevice ∧
    xNum .int [0x28#8, 0x30#8, 0x30#8, 0x33#8, 0x29#8] = some 3#32 ∧ xNum .int [0x28#8,
        0x29#8] = none ∧ [0x29#8].length < 2 :=
      by decide +kernel

/-- A stamp of 13 bytes, a stamp that holds the second `'('` (V201), and a numeral without a fraction. -/
theorem witness_DeviceReadingRowWritesItsSlot :
    small.record.dev.length = small.cfg.nsub ∧ 1 ≤ small.cfg.nsub ∧ small.record.dev[1 - 1]? = some defaultDevice ∧
    AllDigits [0x31#8, 0x32#8, 0x37#8, 0x38#8, 0x35#8] ∧ AllDigits [0x31#8, 0x32#8, 0x33#8] ∧ AllDigits [] ∧ dec
        ([0x31#8, 0x32#8, 0x37#8, 0x38#8, 0x35#8] ++ [0x31#8, 0x32#8, 0x33#8]) < 2 ^ 32 ∧
    0x28#8 ∉ [0x31#8, 0x30#8, 0x31#8, 0x32#8, 0x30#8, 0x39#8, 0x31#8, 0x31#8, 0x32#8, 0x35#8, 0x30#8, 0x30#8, 0x57#8,
        0x29#8] ∧ 0x28#8 ∉ [0x31#8, 0x30#8, 0x31#8, 0x32#8, 0x30#8, 0x39#8, 0x31#8, 0x31#8, 0x32#8, 0x35#8, 0x29#8] ∧
        0x2A#8 ∉ [0x20#8] ∧ 0x29#8 ∉ [0x6D#8, 0x33#8] ∧
    [0x31#8, 0x30#8, 0x31#8, 0x32#8, 0x30#8, 0x39#8, 0x31#8, 0x31#8, 0x32#8, 0x35#8, 0x30#8, 0x30#8, 0x57#8, 0x29#8,
        0x28#8, 0x31#8, 0x32#8, 0x37#8, 0x38#8, 0x35#8, 0x2E#8, 0x31#8, 0x32#8, 0x33#8, 0x2A#8, 0x6D#8, 0x33#8,
        0x29#8] =
      [0x31#8, 0x30#8, 0x31#8, 0x32#8, 0x30#8, 0x39#8, 0x31#8, 0x31#8, 0x32#8, 0x35#8, 0x30#8, 0x30#8, 0x57#8,
        0x29#8] ++ 0x28#8 :: [0x31#8, 0x32#8, 0x37#8, 0x38#8, 0x35#8] ++ (if [0x31#8, 0x32#8, 0x33#8] = [] then []
        else 0x2E#8 :: [0x31#8, 0x32#8, 0x33#8]) ++ [] ++
        0x2A#8 :: [0x6D#8, 0x33#8] ++ 0x29#8 :: [] ∧
    [0x31#8, 0x30#8, 0x31#8, 0x32#8, 0x30#8, 0x39#8, 0x31#8, 0x31#8, 0x32#8, 0x35#8, 0x29#8, 0x28#8, 0x31#8, 0x32#8,
        0x37#8, 0x38#8, 0x35#8, 0x2E#8, 0x31#8, 0x32#8, 0x33#8, 0x2A#8, 0x6D#8, 0x33#8, 0x29#8] =
      [0x31#8, 0x30#8, 0x31#8, 0x32#8, 0x30#8, 0x39#8, 0x31#8, 0x31#8, 0x32#8, 0x35#8, 0x29#8] ++ 0x28#8 :: [0x31#8,
        0x32#8, 0x37#8, 0x38#8, 0x35#8] ++ (if [0x31#8, 0x32#8, 0x33#8] = [] then [] else 0x2E#8 :: [0x31#8, 0x32#8,
        0x33#8]) ++ [] ++
        0x2A#8 :: [0x6D#8, 0x33#8] ++ 0x29#8 :: [] ∧
    13 ≤ [0x31#8, 0x30#8, 0x31#8, 0x32#8, 0x30#8, 0x39#8, 0x31#8, 0x31#8, 0x32#8, 0x35#8, 0x30#8, 0x30#8, 0x57#8,
        0x29#8, 0x28#8, 0x31#8, 0x32#8, 0x37#8, 0x38#8, 0x35#8, 0x2E#8, 0x31#8, 0x32#8, 0x33#8, 0x2A#8, 0x6D#8,
        0x33#8, 0x29#8].length ∧ 13 ≤ [0x31#8, 0x30#8, 0x31#8, 0x32#8, 0x30#8, 0x39#8, 0x31#8, 0x31#8, 0x32#8,
        0x35#8, 0x29#8, 0x28#8, 0x31#8, 0x32#8, 0x37#8, 0x38#8, 0x35#8, 0x2E#8, 0x31#8, 0x32#8, 0x33#8, 0x2A#8,
        0x6D#8, 0x33#8, 0x29#8].length := by
  unfold AllDigits
  decide +kernel

/-- One line for each way a reading is incomplete, and a numeral of `2^32`. -/
theorem witness_IncompleteReadingWritesNothing :
    [0x31#8, 0x30#8, 0x31#8, 0x32#8, 0x30#8, 0x39#8, 0x31#8, 0x31#8, 0x32#8, 0x35#8].length < 13 ∧ 0x28#8 ∉ [0x31#8,
        0x30#8, 0x31#8, 0x32#8, 0x30#8, 0x39#8, 0x31#8, 0x31#8, 0x32#8, 0x35#8, 0x30#8, 0x30#8, 0x57#8, 0x29#8] ∧
    [0x31#8, 0x30#8, 0x31#8, 0x32#8, 0x30#8, 0x39#8, 0x31#8, 0x31#8, 0x32#8, 0x35#8, 0x30#8, 0x30#8, 0x57#8, 0x29#8,
        0x28#8, 0x31#8, 0x2E#8, 0x35#8, 0x2A#8, 0x6D#8, 0x33#8, 0x29#8] = [0x31#8, 0x30#8, 0x31#8, 0x32#8, 0x30#8,
        0x39#8, 0x31#8, 0x31#8, 0x32#8, 0x35#8, 0x30#8, 0x30#8, 0x57#8, 0x29#8] ++ 0x28#8 :: [0x31#8, 0x2E#8, 0x35#8,
        0x2A#8, 0x6D#8, 0x33#8, 0x29#8] ∧
    NoFixNumeral 2 1 [0x31#8, 0x2E#8, 0x35#8, 0x2A#8, 0x6D#8, 0x33#8, 0x29#8] ∧
    (AllDigits [0x34#8, 0x32#8, 0x39#8, 0x34#8, 0x39#8, 0x36#8, 0x37#8, 0x32#8] ∧ AllDigits [0x39#8, 0x36#8] ∧
        [0x34#8, 0x32#8, 0x39#8, 0x34#8, 0x39#8, 0x36#8, 0x37#8, 0x32#8].length = 8 ∧ [0x39#8, 0x36#8].length = 2 ∧
      [0x34#8, 0x32#8, 0x39#8, 0x34#8, 0x39#8, 0x36#8, 0x37#8, 0x32#8, 0x2E#8, 0x39#8, 0x36#8, 0x2A#8, 0x6D#8,
        0x33#8, 0x29#8] = [0x34#8, 0x32#8, 0x39#8, 0x34#8, 0x39#8, 0x36#8, 0x37#8, 0x32#8] ++ (if [0x39#8, 0x36#8] =
        [] then [] else 0x2E#8 :: [0x39#8, 0x36#8]) ++ [0x2A#8, 0x6D#8, 0x33#8, 0x29#8] ∧
      2 ^ 32 ≤ dec ([0x34#8, 0x32#8, 0x39#8, 0x34#8, 0x39#8, 0x36#8, 0x37#8, 0x32#8] ++ [0x39#8, 0x36#8])) ∧
    0x2A#8 ∉ [0x31#8, 0x32#8, 0x2E#8, 0x35#8, 0x20#8, 0x6D#8, 0x33#8, 0x29#8] ∧
    [0x31#8, 0x32#8, 0x2E#8, 0x35#8, 0x2A#8, 0x6D#8, 0x33#8] = [0x31#8, 0x32#8, 0x2E#8, 0x35#8] ++ 0x2A#8 :: [0x6D#8,
        0x33#8] ∧ 0x2A#8 ∉ [0x31#8, 0x32#8, 0x2E#8, 0x35#8] ∧ 0x29#8 ∉ [0x6D#8, 0x33#8] :=
  ⟨by decide, by decide, by decide, .inl ⟨1, 0x2E#8, by decide⟩, by unfold AllDigits; decide +kernel, by decide⟩

theorem witness_DeviceTypeClassifiesTheCode :
    small.cfg.wf = true ∧ 99#32 ≠ small.cfg.devGas ∧ 99#32 ≠ small.cfg.devThermal ∧ 99#32 ≠ small.cfg.devWater := by
  decide +kernel

theorem witness_HeaderLineStoresItsText :
    0x21#8 ∉ [0x41#8, 0x42#8] ∧ [0x41#8, 0x42#8].getLast? ≠ some 0x0D#8 ∧
    ∃ rest : List Byte, rest = 0x21#8 :: [0x30#8, 0x30#8, 0x30#8, 0x30#8] := ⟨by decide, by decide, _, rfl⟩

theorem witness_EndlineChecksTheFrame :
    ready.len ≤ ready.cfg.cap ∧ ready.frame = [0x2F#8, 0x48#8, 0x0D#8, 0x0A#8] ++ 0x21#8 :: [0x30#8, 0x30#8, 0x30#8,
        0x30#8, 0x0D#8, 0x0A#8] ∧
    0x21#8 ∉ [0x2F#8, 0x48#8, 0x0D#8, 0x0A#8] ∧ hex4 0x30#8 0x30#8 0x30#8 0x30#8 = some 0#16 ∧ hex4 0x7A#8 0x30#8
        0x30#8 0x30#8 = none := by
  decide +kernel

theorem witness_ChecksumLaws : [0x41#8, 0x42#8].length = [0x43#8, 0x44#8].length := by decide

theorem witness_ChecksumDetectsOneAlteredByte : 0x41#8 ≠ 0x42#8 := by decide

theorem witness_HexTextReadsBack : hex4 0x37#8 0x42#8 0x31#8 0x37#8 = some 0x7B17#16 := by decide

/-- The empty body, and a body of which one byte is altered. -/
theorem witness_OwnChecksumIsValidAndOneAlteredByteIsNot :
    Sound small ∧ small.st = .idle ∧ (0x21#8 ∉ ([] : List Byte) ∧ ([] : List Byte).length + 8 ≤ small.cfg.cap) ∧
    [0x48#8, 0x2D#8, 0x31#8, 0x0A#8] = [0x48#8] ++ 0x2D#8 :: [0x31#8, 0x0A#8] ∧ 0x2D#8 ≠ 0x2E#8 ∧ 0x2E#8 ≠ 0x21#8 ∧
    0x21#8 ∉ [0x48#8, 0x2D#8, 0x31#8, 0x0A#8] ∧ [0x48#8, 0x2D#8, 0x31#8, 0x0A#8].length + 8 ≤ small.cfg.cap :=
  ⟨small_sound, by decide +kernel⟩

/-- One instruction of each port, the sub-device rows and the widest operands. -/
theorem witness_DecodeGivesBackWhatWasEncoded :
    rowsDisjoint defaultTagTable = true ∧ (∀ r ∈ defaultTagTable, r.shapely = true) ∧
    ([Instr.t01Version .int [0x28#8, 0x35#8, 0x30#8, 0x29#8], .t34DevEquipId 9 [], .header [],
        .endline 0x30#8 0x30#8 0x30#8 0x30#8 0x0D#8 0x0A#8,
      .unrecognised [], .rdBuf 0xFFFFFFFF, .rdRec (.devRdUnit 0xFFFFFFFF), .rdCfg .devWater].all fun i =>
        WellFormed defaultTagTable i && (encode defaultTagTable i).isSome) = true := by decide +kernel

theorem witness_TagDispatchIsAnUnambiguousPrefixTest :
    rowsDisjoint defaultTagTable = true ∧ (defaultTagTable[0]?).isSome = true ∧
    (defaultTagTable[0]?).bind (fun r => matchPattern r.pattern [0x31#8, 0x2D#8, 0x33#8, 0x3A#8, 0x30#8, 0x2E#8,
        0x32#8, 0x2E#8, 0x38#8, 0x28#8, 0x35#8, 0x30#8, 0x29#8]) = some [0x28#8, 0x35#8, 0x30#8, 0x29#8] := by
  decide +kernel

theorem witness_LinesAreCutAtEachSeparator :
    [0x2F#8, 0x48#8, 0x0A#8].getLast? = some 0x0A#8 ∧ [0x2F#8, 0x48#8] ≠ [] ∧ [0x2F#8, 0x48#8].getLast? ≠ some 0x0A#8 :=
      by decide

theorem witness_WrittenWordsDecode :
    (0x00#8).toNat = 0 ∧ (0x06#8).toNat = 6 ∧ (0x07#8).toNat = 7 ∧ 14 ≤ (0x0E#8).toNat ∧ 14 ≤ (0xFF#8).toNat :=
      by decide

/-- A wait, an arrival, a request, a code that is no operation; a line and the trailer of a PARSE; the parts of a
    POLL. -/
theorem witness_StepRunsTheDecodedInstruction :
    small.act = .idle ∧ small.inbox = [] ∧
    (small.withInbox [.arrive [0x2F#8]]).inbox = .arrive [0x2F#8] :: [] ∧
    (small.withInbox [.operation [0x05#8]]).inbox = .operation [0x05#8] :: [] ∧
    decode .host small.cfg.tagtab [0x05#8] = .ok .rst ∧
    decode .host small.cfg.tagtab [0x06#8] = .error (.notAnOperation 6) ∧
    ready.len ≤ ready.cfg.cap ∧ fetchLine ready.cfg.tagtab ready.frame 0 0 = .ok (.header [0x48#8, 0x0D#8]) ∧
    fetchTrailer ready.cfg.tagtab ready.frame = .ok (.endline 0x30#8 0x30#8 0x30#8 0x30#8 0x0D#8 0x0A#8) ∧
    (small.withAct .arming).act = .arming ∧ (small.withAct .receiving).act = .receiving ∧
    (small.withAct .receiving).q = [] ∧ (ready.withQ [0x2F#8]).st = .ready ∧ (ready.withQ [0x2F#8]).q ≠ [] ∧
    (small.withQ [0x2F#8]).q = 0x2F#8 :: [] ∧ small.st = .idle ∧ partialFrame.st = .assembling ∧
    partialFrame.len < partialFrame.cfg.cap ∧ fullFrame.cfg.cap ≤ fullFrame.len := by decide +kernel

theorem witness_LineByLineParseReachesTheAtomicResult : Sound ready ∧ ready.st = .ready ∧ ready.act = .idle :=
  ⟨ready_sound, by decide +kernel⟩

theorem witness_ByteByBytePollReachesTheAtomicResult :
    Sound (small.withQ [0x2F#8, 0x48#8, 0x0D#8, 0x0A#8, 0x21#8, 0x30#8, 0x30#8, 0x30#8, 0x30#8, 0x0D#8,
        0x0A#8]) ∧ (small.withQ [0x2F#8, 0x48#8, 0x0D#8, 0x0A#8, 0x21#8, 0x30#8, 0x30#8, 0x30#8, 0x30#8, 0x0D#8,
        0x0A#8]).act = .idle :=
  ⟨by apply sound_of <;> decide +kernel, by decide +kernel⟩

theorem witness_EveryStepKeepsTheMachineSound : Sound partialFrame ∧ ∃ t, step partialFrame = .next t :=
  ⟨partialFrame_sound, _, rfl⟩

theorem witness_ResetIsSound : small.cfg.wf = true := by decide +kernel

theorem witness_NoFaultInASoundState : ∃ s, Sound s ∧ s.st = .ready := ⟨ready, ready_sound, rfl⟩

/-- A raised and a lowered flag. -/
theorem witness_StatusChangesOnlyByTheNamedOperations :
    (∃ t, exec .abort partialFrame = .next t ∧ partialFrame.err.abt = false ∧ t.err.abt = true ∧ t.st ≠
        partialFrame.st) ∧
    ∃ t, exec .arm small = .next t ∧ t.rts = .high ∧ small.rts = .hiZ :=
  ⟨⟨_, rfl, by decide +kernel, by decide +kernel, by decide +kernel⟩, _, rfl, by decide +kernel, by decide +kernel⟩

theorem witness_ReadyBufferIsFrozen : ready.st = .ready ∧ ∃ t, exec .arm ready = .next t := ⟨rfl, _, rfl⟩

theorem witness_OnlyParseAndRstWriteTheRecord :
    ∃ t, exec .errclr ready = .next t ∧ Instr.errclr.port = .host ∧ Instr.errclr ≠ .parse ∧ Instr.errclr ≠ .rst :=
  ⟨_, rfl, rfl, by decide, by decide⟩

end Sys2Proof.Tests
end

section
/-! PROOFS. The Frame Assembler (41_assembler.md): storing text in the buffer, one received byte, and a whole telegram
found by POLL. -/

namespace Sys2Proof.Machine

/-! ## Text stored in the buffer -/

theorem storeAt_append (a : Nat) (xs ys : List Byte) (m : Memory) :
    storeAt a (xs ++ ys) m = storeAt (a + xs.length) ys (storeAt a xs m) := by
  induction xs generalizing a m with
  | nil => rfl
  | cons x xs ih =>
    rw [List.cons_append, storeAt, ih, storeAt, List.length_cons, Nat.add_right_comm, Nat.add_assoc]

/-- Stored text changes no byte outside its range. -/
theorem read_storeAt_of_out {a k : Nat} (bs : List Byte) (m : Memory) (h : k < a ∨ a + bs.length ≤ k) :
    (storeAt a bs m).read k = m.read k := by
  induction bs generalizing a m with
  | nil => rfl
  | cons b bs ih =>
    rw [List.length_cons] at h
    rw [storeAt, ih _ (by omega), Memory.read_write_of_ne _ _ (by omega)]

/-- Stored text reads back byte by byte. -/
theorem read_storeAt {m : Memory} (hm : m.wf = true) (a : Nat) {bs : List Byte} {k : Nat} (hk : k < bs.length) :
    (storeAt a bs m).read (a + k) = bs[k] := by
  induction bs generalizing a m k with
  | nil => cases hk
  | cons b bs ih =>
    cases k with
    | zero => exact (read_storeAt_of_out bs _ (.inl (by omega))).trans (Memory.read_write_self a b hm)
    | succ k =>
      rw [storeAt, show a + (k + 1) = a + 1 + k by omega]
      exact ih (Memory.wf_write a b hm) (a + 1) (Nat.lt_of_succ_lt_succ hk)

/-- Stored text reads back as a range. -/
theorem range_storeAt {m : Memory} (hm : m.wf = true) (a : Nat) (bs : List Byte) :
    (storeAt a bs m).range a bs.length = bs := by
  refine List.ext_getElem (Memory.length_range ..) fun k hk hk' => Option.some.inj ?_
  rw [← List.getElem?_eq_getElem hk, Memory.getElem?_range, if_pos hk', read_storeAt hm a hk']

/-! ## One received byte -/

theorem exec_rxIdleOther {b : Byte} {s : State} (hs : s.st = .idle) (hb : b ≠ startMarker) :
    exec (.rxIdleOther b) s = .next s := if_pos ⟨hs, hb⟩

theorem exec_rxIdleStart {s : State} (hs : s.st = .idle) (hc : 0 < s.cfg.cap) :
    exec .rxIdleStart s = .next ((stored 0 startMarker s).withSt .assembling) :=
  (if_pos hs).trans (startFrame_eq_next.mpr ⟨hc, rfl⟩)

theorem exec_rxAppend (b : Byte) {s : State} (hs : s.st = .assembling) (hl : s.len < s.cfg.cap) :
    exec (.rxAppend b) s =
      .next (if completes (stored s.len b s) then becomeReady (stored s.len b s) else stored s.len b s) :=
  execRxAppend_eq b hs hl

theorem receive_idleOther {b : Byte} {s : State} (hs : s.st = .idle) (hb : b ≠ startMarker) :
    receive b s = .next s := by
  rw [receive_eq_exec, rxInstr, hs]
  exact (congrArg (exec · s) (if_neg hb)).trans (exec_rxIdleOther hs hb)

theorem receive_idleStart {s : State} (hs : s.st = .idle) (hc : 0 < s.cfg.cap) :
    receive startMarker s = .next ((stored 0 startMarker s).withSt .assembling) := by
  rw [receive_eq_exec, rxInstr, hs]
  exact exec_rxIdleStart hs hc

theorem receive_append (b : Byte) {s : State} (hs : s.st = .assembling) (hl : s.len < s.cfg.cap) :
    receive b s =
      .next (if completes (stored s.len b s) then becomeReady (stored s.len b s) else stored s.len b s) := by
  rw [receive_eq_exec, rxInstr, hs]
  exact (congrArg (exec · s) (if_pos hl)).trans (exec_rxAppend b hs hl)

/-! ## The loop of POLL -/

/-- The state with a text appended to the frame, and nothing else changed. -/
def storedText (bs : List Byte) (s : State) : State :=
  (s.withBuf (storeAt s.len bs s.buf)).withLen (s.len + bs.length)

theorem storedText_singleton (b : Byte) (s : State) : storedText [b] s = stored s.len b s := rfl

theorem storedText_append (xs ys : List Byte) (s : State) :
    storedText (xs ++ ys) s = storedText ys (storedText xs s) := by
  simp only [storedText, storeAt_append, List.length_append, ← Nat.add_assoc]
  rfl

/-- In Idle everything before the start marker is passed over (R151, R152). -/
theorem pollLoop_idle {junk : List Byte} (q : List Byte) {s : State} (hs : s.st = .idle) (hc : 0 < s.cfg.cap)
    (hj : startMarker ∉ junk) :
    pollLoop (junk ++ startMarker :: q) s = pollLoop q ((stored 0 startMarker s).withSt .assembling) := by
  have hr : s.st ≠ .ready := by simp [hs]
  induction junk with
  | nil => rw [List.nil_append, pollLoop_cons _ _ hr, receive_idleStart hs hc, andThen_next]
  | cons b junk ih =>
    obtain ⟨hb, hj⟩ := not_or.mp (mt List.mem_cons.mpr hj)
    rw [List.cons_append, pollLoop_cons _ _ hr, receive_idleOther hs (Ne.symm hb), andThen_next, ih hj]

/-- In Assembling a text that fits and brings no end marker to the lookback position is stored whole (R153). -/
theorem pollLoop_assembling (bs q : List Byte) {s : State} (hs : s.st = .assembling)
    (hl : s.len + bs.length ≤ s.cfg.cap)
    (hu : ∀ k, k + 7 ≤ s.len + bs.length → (storeAt s.len bs s.buf).read k ≠ endMarker) :
    pollLoop (bs ++ q) s = pollLoop q (storedText bs s) := by
  induction bs generalizing s with
  | nil => rfl
  | cons b bs ih =>
    rw [List.length_cons] at hl hu
    have hnot : ¬ completes (stored s.len b s) = true := by
      rw [completes_iff]
      rintro ⟨h7, hend⟩
      change 7 ≤ s.len + 1 at h7
      refine hu (s.len + 1 - 7) (by omega) ?_
      rwa [storeAt, read_storeAt_of_out _ _ (.inl (by omega))]
    rw [List.cons_append, pollLoop_cons _ _ (by simp [hs]), receive_append b hs (by omega), if_neg hnot, andThen_next,
      ih (s := stored s.len b s) hs (by change s.len + 1 + bs.length ≤ s.cfg.cap; omega)
        fun k hk => hu k (by change k + 7 ≤ s.len + 1 + bs.length at hk; omega),
      ← storedText_singleton, ← storedText_append, List.singleton_append]

/-- In Assembling a text whose last byte is the one that completes the frame is stored whole, and ends the loop
(R153, R158). -/
theorem pollLoop_completes (bs : List Byte) (b : Byte) (q : List Byte) {s : State} (hs : s.st = .assembling)
    (hl : s.len + bs.length < s.cfg.cap)
    (hu : ∀ k, k + 7 ≤ s.len + bs.length → (storeAt s.len bs s.buf).read k ≠ endMarker)
    (hc : completes (storedText (bs ++ [b]) s) = true) :
    pollLoop (bs ++ b :: q) s = .next ((becomeReady (storedText (bs ++ [b]) s)).withQ q) := by
  rw [storedText_append, storedText_singleton] at hc ⊢
  rw [pollLoop_assembling bs _ hs (Nat.le_of_lt hl) hu, pollLoop_cons _ _ (by simp [storedText, hs]),
    receive_append b (s := storedText bs s) hs hl, if_pos hc, andThen_next, pollLoop_ready]
  rw [becomeReady_eq]
  rfl

/-- A text appended to a frame just started stands behind the start marker. -/
theorem storedText_start (bs : List Byte) (s : State) :
    storedText bs ((stored 0 startMarker s).withSt .assembling) =
      ((s.withBuf (storeAt 0 (startMarker :: bs) s.buf)).withLen (1 + bs.length)).withSt .assembling := rfl

/-! ## A whole telegram -/

/-- The bytes of a telegram: its body between the two markers, then the rest of its trailer. -/
def telegram (body six : List Byte) : List Byte := startMarker :: body ++ endMarker :: six

theorem length_telegram (body six : List Byte) : (telegram body six).length = body.length + six.length + 2 := by
  simp [telegram]; omega

/-- In a stored telegram no byte before the end of the body is an end marker. -/
theorem read_telegram_ne_endMarker {m : Memory} (hm : m.wf = true) {body : List Byte} (six : List Byte)
    (hb : endMarker ∉ body) {k : Nat} (hk : k < body.length + 1) :
    (storeAt 0 (telegram body six) m).read k ≠ endMarker := by
  have hlt : k < (telegram body six).length := by rw [length_telegram]; omega
  have hmem : (telegram body six)[k] ∈ startMarker :: body := by
    rw [show (telegram body six)[k] = (startMarker :: body)[k] from List.getElem_append_left hk]
    exact List.getElem_mem _
  rw [← read_storeAt hm 0 hlt, Nat.zero_add] at hmem
  intro h
  rw [h, List.mem_cons] at hmem
  exact hmem.elim (by decide) hb

/-- A stored telegram has the end marker right after its body. -/
theorem read_telegram_endMarker {m : Memory} (hm : m.wf = true) (body six : List Byte) :
    (storeAt 0 (telegram body six) m).read (body.length + 1) = endMarker := by
  have hlt : body.length + 1 < (telegram body six).length := by rw [length_telegram]; omega
  rw [← Nat.zero_add (body.length + 1), read_storeAt hm 0 hlt]
  simp [telegram]

/-- In Idle the loop passes over the junk, stores the telegram, becomes Ready at its last byte and leaves the rest. -/
theorem pollLoop_telegram {junk body six : List Byte} (rest : List Byte) {s : State} (hm : s.buf.wf = true)
    (hs : s.st = .idle) (hj : startMarker ∉ junk) (hb : endMarker ∉ body) (h6 : six.length = 6)
    (hc : body.length + 8 ≤ s.cfg.cap) :
    pollLoop (junk ++ telegram body six ++ rest) s =
      .next ((becomeReady (((s.withBuf (storeAt 0 (telegram body six) s.buf)).withLen
        (body.length + 8)).withSt .assembling)).withQ rest) := by
  obtain ⟨five, last, rfl⟩ := six.eq_nil_or_concat'.resolve_left (by rintro rfl; cases h6)
  have hlen : (body ++ endMarker :: five).length = body.length + 6 := by simpa using h6
  have hsplit : junk ++ telegram body (five ++ [last]) ++ rest =
      junk ++ startMarker :: ((body ++ endMarker :: five) ++ last :: rest) := by simp [telegram]
  have hwhole : storedText ((body ++ endMarker :: five) ++ [last]) ((stored 0 startMarker s).withSt .assembling) =
      ((s.withBuf (storeAt 0 (telegram body (five ++ [last])) s.buf)).withLen
        (body.length + 8)).withSt .assembling := by
    rw [storedText_start, List.length_append, hlen, List.length_singleton, Nat.add_comm 1]
    simp [telegram]
  rw [hsplit, pollLoop_idle _ hs (by omega) hj, pollLoop_completes _ _ _ rfl ?fits ?unfinished ?complete, hwhole]
  case fits =>
    change 1 + (body ++ endMarker :: five).length < s.cfg.cap
    omega
  case unfinished =>
    intro k hk
    change k + 7 ≤ 1 + (body ++ endMarker :: five).length at hk
    exact read_telegram_ne_endMarker hm five hb (by omega)
  case complete =>
    rw [hwhole, completes_iff]
    exact ⟨by simp, read_telegram_endMarker hm body _⟩

/-- Settles O10: after ARM the loop finds the telegram, and the buffer is the old one with the telegram stored at 0. -/
theorem pollAssemblesAWholeTelegram : Obligations.PollAssemblesAWholeTelegram := by
  intro s junk body six rest hm hs hj hb h6 hc hq
  refine ⟨storeAt 0 (telegram body six) s.buf, ?poll, ?frame, fun a ha => ?above⟩
  case poll =>
    have hq' : s.q = junk ++ telegram body six ++ rest := by simp [hq, telegram]
    change andThen (execArm s) (pollLoop s.q) = _
    rw [hq', execArm, andThen_next]
    by_cases hf : s.cfg.fcEn = true
    · rw [if_pos ⟨hf, by simp [hs]⟩, pollLoop_telegram rest (s := s.withRts .high) hm hs hj hb h6 hc]
      simp only [becomeReady_eq, State.withSt_cfg, State.withLen_cfg, State.withBuf_cfg, State.withRts_cfg, hf, if_true]
      rfl
    · rw [if_neg (by simp [hf]), pollLoop_telegram rest hm hs hj hb h6 hc, becomeReady_eq]
      rfl
  case frame =>
    have h := range_storeAt hm 0 (telegram body six)
    rwa [length_telegram, h6] at h
  case above => exact read_storeAt_of_out _ _ (.inr (by rw [length_telegram]; omega))

/-- Settles O4: the two Idle cases of RX, and the buffer's rules for the start marker written at index 0. -/
theorem idleDiscardsBytesUntilTheStartMarker : Obligations.IdleDiscardsBytesUntilTheStartMarker := by
  intro s hs
  refine ⟨fun b hb => exec_rxIdleOther hs hb, fun hc => ⟨_, exec_rxIdleStart hs hc, ?_, fun a ha => ?_⟩⟩
  · exact Memory.read_write_zero _ (by decide)
  · exact Memory.read_write_of_ne _ _ ha

/-- Settles O5: the append writes one byte, and the completion test reads the written buffer. -/
theorem appendStoresAtLenAndTestsTheLookback : Obligations.AppendStoresAtLenAndTestsTheLookback := by
  intro s b hm hs hl
  refine ⟨s.buf.write s.len b, Memory.read_write_self _ _ hm, fun a ha => Memory.read_write_of_ne _ _ ha, ?_⟩
  rw [exec_rxAppend b hs hl, becomeReady_eq]
  simp only [completes_iff]
  rfl

end Sys2Proof.Machine
end

section
/-! PROOFS. The Field Parser (42_parser.md): a walk over lines writes the record only, what PARSE answers on a Ready
frame, and the parts of a complete frame. -/

namespace Sys2Proof.Machine

/-! ## Lines write the record only -/

theorem commit_writes_record {α : Type} (v : Option α) (w : α → Record → Record) (s : State) :
    ∃ r, commit v w s = s.withRecord r := by
  obtain ⟨-, h⟩ | ⟨a, -, h⟩ := commit_cases v w s
  · exact ⟨s.record, h⟩
  · exact ⟨_, h⟩

theorem route_writes_record (n : Nat) {k : Nat → State → State} {s : State}
    (hk : ∀ j, ∃ r, k j s = s.withRecord r) : ∃ r, route n k s = s.withRecord r := by
  obtain ⟨-, h⟩ | ⟨-, -, h⟩ := route_cases n k s
  · exact ⟨s.record, h⟩
  · rw [h]
    exact hk (n - 1)

/-- A tag row completes and writes at most the record. -/
theorem exec_row_writes_record (a : RowAction) (n : Nat) (g : List Byte) (s : State) :
    ∃ r, exec (a.toInstr n g) s = .next (s.withRecord r) := by
  suffices ∃ t, exec (a.toInstr n g) s = .next t ∧ ∃ r, t = s.withRecord r by
    obtain ⟨t, ht, r, rfl⟩ := this
    exact ⟨r, ht⟩
  cases a with
  | num d rule => exact ⟨_, exec_toInstr d rule g s, commit_writes_record ..⟩
  | ts => exact ⟨_, rfl, commit_writes_record ..⟩
  | equipId => exact ⟨_, rfl, commit_writes_record ..⟩
  | msg => exact ⟨_, rfl, commit_writes_record ..⟩
  | pflog => exact ⟨_, rfl, commit_writes_record ..⟩
  | devTypeCode rule => exact ⟨_, rfl, route_writes_record n fun _ => commit_writes_record ..⟩
  | devEquipId => exact ⟨_, rfl, route_writes_record n fun _ => commit_writes_record ..⟩
  | devReading w f => exact ⟨_, rfl, route_writes_record n fun _ => commit_writes_record ..⟩

/-- A dispatched line, recognised or not, completes and writes at most the record. -/
theorem exec_decodeLine_writes_record (table : List TagRow) (line : List Byte) (s : State) :
    ∃ r, exec (decodeLine table line) s = .next (s.withRecord r) := by
  unfold decodeLine
  split
  · exact exec_row_writes_record ..
  · exact ⟨s.record, rfl⟩

theorem frameProgram_writes_record {table : List TagRow} {frame : List Byte} {i : Instr}
    (hi : i ∈ frameProgram table frame) (s : State) : ∃ r, runLine i s = .next (s.withRecord r) := by
  unfold frameProgram at hi
  split at hi
  · cases hi
  · obtain rfl | hi := List.mem_cons.mp hi
    · exact ⟨_, rfl⟩
    · obtain ⟨line, -, rfl⟩ := List.mem_map.mp hi
      rw [runLine_eq_exec (.inl (decodeLine_isLine table line))]
      exact exec_decodeLine_writes_record ..

/-- A walk over instructions that write the record only writes the record only. -/
theorem walk_writes_record {is : List Instr} (h : ∀ i ∈ is, ∀ s, ∃ r, runLine i s = .next (s.withRecord r))
    (s : State) : ∃ r, walk is s = .next (s.withRecord r) := by
  induction is generalizing s with
  | nil => exact ⟨s.record, rfl⟩
  | cons i is ih =>
    obtain ⟨r, hr⟩ := h i List.mem_cons_self s
    obtain ⟨r', hr'⟩ := ih (fun j hj => h j (List.mem_cons_of_mem i hj)) (s.withRecord r)
    exact ⟨r', by rw [walk, hr, andThen_next, hr', State.withRecord_withRecord]⟩

/-! ## What PARSE answers -/

theorem execEndline_of_le {s : State} (c1 c2 c3 c4 t1 t2 : Byte) (h : s.len ≤ s.cfg.cap) :
    execEndline c1 c2 c3 c4 t1 t2 s = .next (checkTrailer s.frame c1 c2 c3 c4 s) :=
  withFrame_of_le (fun s frame => .next (checkTrailer frame c1 c2 c3 c4 s)) h

/-- Step 5 on the characters the frame itself holds. -/
def checkOwnTrailer (s : State) : State :=
  checkTrailer s.frame (trailerByte s.frame 1) (trailerByte s.frame 2) (trailerByte s.frame 3) (trailerByte s.frame 4) s

/-- PARSE of a Ready frame writes the record, then runs step 5 on the frame's own trailer, then clears the frame
(42_parser.md R170). -/
theorem exec_parse_ready {s : State} (hst : s.st = .ready) (hlen : s.len ≤ s.cfg.cap) :
    ∃ r, exec .parse s = .next (clearFrame (checkOwnTrailer (s.withRecord r))) := by
  obtain ⟨r, hwalk⟩ := walk_writes_record (is := frameProgram s.cfg.tagtab s.frame)
    (fun _ hi => frameProgram_writes_record hi) (beginParse s.frame s)
  refine ⟨r, ?_⟩
  calc exec .parse s
    _ = execParse s := rfl
    _ = parseFrame s.frame s := by rw [execParse, if_pos hst, withFrame_of_le (fun s frame => parseFrame frame s) hlen]
    _ = andThen (endline s.frame (s.withRecord r)) fun t => .next (clearFrame t) := by
      rw [parseFrame, hwalk, andThen_next, beginParse, State.withRecord_withRecord]
    _ = .next (clearFrame (checkOwnTrailer (s.withRecord r))) := by
      rw [endline, execEndline_of_le (s := s.withRecord r) _ _ _ _ _ _ hlen]
      rfl

/-! ## The parts of a complete frame -/

section
variable {s : State} (ha : AssemblerWf s) (hst : s.st = .ready)
include ha hst

/-- The frame of a sound Ready state: a body without an end marker, the end marker at `LEN - 7`, and six bytes
(20_memory.md R78). -/
theorem frame_of_ready :
    s.frame = s.buf.range 0 (s.len - 7) ++ endMarker :: s.buf.range (s.len - 6) 6 ∧
      endMarker ∉ s.buf.range 0 (s.len - 7) := by
  obtain ⟨h8, hend, hbody⟩ := ha.complete hst
  constructor
  · have hsplit := Memory.range_add s.buf 0 (s.len - 7) 7
    rw [show s.len - 7 + 7 = s.len by omega, Nat.zero_add, Memory.range, hend,
      show s.len - 7 + 1 = s.len - 6 by omega] at hsplit
    exact hsplit
  · intro hmem
    obtain ⟨k, hk⟩ := List.mem_iff_getElem?.mp hmem
    rw [Memory.getElem?_range, Nat.zero_add, Option.ite_none_right_eq_some] at hk
    obtain ⟨hlt, hread⟩ := hk
    exact hbody k hlt (Option.some.inj hread)

/-- The checksum covers the bytes through the end marker (40_crc.md R144). -/
theorem checkedRange_of_ready : checkedRange s.frame = s.buf.range 0 (s.len - 6) := by
  obtain ⟨h8, hend, -⟩ := ha.complete hst
  obtain ⟨hframe, hbody⟩ := frame_of_ready ha hst
  rw [hframe, checkedRange_append _ hbody, show s.len - 6 = s.len - 7 + 1 by omega, Memory.range_add, Nat.zero_add,
    Memory.range, hend, Memory.range]

/-- The trailer's bytes after the end marker stand from `LEN - 6` on. -/
theorem trailerByte_succ_of_ready {k : Nat} (hk : k < 6) :
    trailerByte s.frame (k + 1) = s.buf.read (s.len - 6 + k) := by
  obtain ⟨hframe, hbody⟩ := frame_of_ready ha hst
  rw [trailerByte, hframe, trailerOf_append _ hbody, List.getD_cons_succ, List.getD_eq_getElem?_getD,
    Memory.getElem?_range, if_pos hk, Option.getD_some]

/-- Step 5 on the frame of a sound Ready state reads the four characters at `LEN - 6` (42_parser.md R192). -/
theorem checkOwnTrailer_of_ready :
    checkOwnTrailer s = checkTrailer s.frame (s.buf.read (s.len - 6)) (s.buf.read (s.len - 5))
      (s.buf.read (s.len - 4)) (s.buf.read (s.len - 3)) s := by
  obtain ⟨h8, -, -⟩ := ha.complete hst
  have hbyte {k : Nat} (hk : k < 6) := trailerByte_succ_of_ready ha hst hk
  rw [checkOwnTrailer, hbyte (k := 0) (by omega), hbyte (k := 1) (by omega), hbyte (k := 2) (by omega),
    hbyte (k := 3) (by omega), show s.len - 6 + 1 = s.len - 5 by omega, show s.len - 6 + 2 = s.len - 4 by omega,
    show s.len - 6 + 3 = s.len - 3 by omega, Nat.add_zero]

end

/-- The invariants of the assembler do not speak of the record. -/
theorem AssemblerWf.withRecord {s : State} (h : AssemblerWf s) (r : Record) : AssemblerWf (s.withRecord r) :=
  ⟨h.1, h.2, h.3, h.4, h.5, h.6, h.7⟩

/-- Settles O21: PARSE ends with step 5 on the frame's own trailer, whose two outcomes are the two clauses. -/
theorem parseComparesTheChecksums : Obligations.ParseComparesTheChecksums := by
  intro s hs hst
  obtain ⟨r, hparse⟩ := exec_parse_ready hst hs.assembler.bounded
  have hwf : AssemblerWf (s.withRecord r) := hs.assembler.withRecord r
  rw [checkOwnTrailer_of_ready hwf hst] at hparse
  refine ⟨_, hparse, ?_⟩
  simp only [State.withRecord_buf, State.withRecord_len]
  obtain ⟨tx, hhex, hcheck⟩ | ⟨hhex, hcheck⟩ := checkTrailer_cases (s.withRecord r).frame (s.buf.read (s.len - 6))
    (s.buf.read (s.len - 5)) (s.buf.read (s.len - 4)) (s.buf.read (s.len - 3)) (s.withRecord r)
  all_goals rw [hcheck, checkedRange_of_ready hwf hst, hhex]
  · refine ⟨rfl, fun tx' htx => ?_, nofun⟩
    obtain rfl := Option.some.inj htx
    exact ⟨rfl, decide_eq_true_iff, rfl⟩
  · exact ⟨rfl, nofun, fun _ => ⟨rfl, rfl, rfl⟩⟩

end Sys2Proof.Machine
end

section
/-! PROOFS. The host operations that do not parse (45_host.md): what the packed bits of `ERR` read as a number. -/

namespace Sys2Proof.Machine

/-! ## Packed bits -/

theorem toNat_bit (b : Bool) : (bit b).toNat = if b = true then 1 else 0 := by cases b <;> rfl

/-- A bit packed below a word doubles the word's value. -/
theorem toNat_append_bit {n : Nat} (x : BitVec n) (b : Bool) :
    (x ++ bit b).toNat = 2 * x.toNat + if b = true then 1 else 0 := by
  rw [BitVec.toNat_append, ← Nat.shiftLeft_add_eq_or_of_lt (bit b).isLt, Nat.shiftLeft_eq, pow_one, Nat.mul_comm,
    toNat_bit]

/-- The weights of the bits of `ERR` (10_state.md R25). -/
theorem Err.toNat_bits (e : Err) :
    e.bits.toNat = (if e.ovf = true then 1 else 0) + (if e.sig = true then 2 else 0)
      + (if e.abt = true then 4 else 0) := by
  rw [Err.bits, toNat_append_bit, toNat_append_bit, toNat_bit]
  split_ifs <;> rfl

/-! ## ERRCLR, RD_ERR and RD_LEN -/

theorem exec_errclr (s : State) : exec .errclr s = .next (s.withErr ⟨false, false, false⟩) := rfl

theorem exec_rdErr (s : State) : exec .rdErr s = .next (s.withOut (.err s.err.bits)) := rfl

theorem exec_rdLen (s : State) : exec .rdLen s = .next (s.withOut (.number s.len)) := rfl

/-- Settles O13: the three operations as the model runs them, and the weights of the bits RD_ERR reads. -/
theorem errorReportIsReadAndCleared : Obligations.ErrorReportIsReadAndCleared :=
  fun s => ⟨exec_errclr s, ⟨s.err.bits, exec_rdErr s, s.err.toNat_bits⟩, exec_rdLen s⟩

end Sys2Proof.Machine
end

section
/-! PROOFS. The lines of a telegram (42_parser.md, 43_fields_main.md, 44_fields_log_subdev.md): every line instruction is
a row of the tag table, the header or an unrecognised line, and its whole effect is what it stores into the record. -/

namespace Sys2Proof.Machine

/-! ## The line instructions as rows -/

/-- An instruction at the port of the lines is a row's, or an unrecognised line. -/
theorem line_eq_toInstr_or_unrecognised {i : Instr} (h : i.port = .line) :
    (∃ a n g, i = RowAction.toInstr n g a) ∨ ∃ line, i = .unrecognised line := by
  cases i with
  | t01Version r g => exact .inl ⟨.num .version r, 0, g, rfl⟩
  | t02Ts g => exact .inl ⟨.ts, 0, g, rfl⟩
  | t03EquipId g => exact .inl ⟨.equipId, 0, g, rfl⟩
  | t04EDelT1 r g => exact .inl ⟨.num .eDelT1 r, 0, g, rfl⟩
  | t05EDelT2 r g => exact .inl ⟨.num .eDelT2 r, 0, g, rfl⟩
  | t06EProdT1 r g => exact .inl ⟨.num .eProdT1 r, 0, g, rfl⟩
  | t07EProdT2 r g => exact .inl ⟨.num .eProdT2 r, 0, g, rfl⟩
  | t08Tariff r g => exact .inl ⟨.num .tariff r, 0, g, rfl⟩
  | t09PDel r g => exact .inl ⟨.num .pDel r, 0, g, rfl⟩
  | t10PProd r g => exact .inl ⟨.num .pProd r, 0, g, rfl⟩
  | t11PfShort r g => exact .inl ⟨.num .pfShort r, 0, g, rfl⟩
  | t12PfLong r g => exact .inl ⟨.num .pfLong r, 0, g, rfl⟩
  | t13Pflog g => exact .inl ⟨.pflog, 0, g, rfl⟩
  | t14SagL1 r g => exact .inl ⟨.num .sagL1 r, 0, g, rfl⟩
  | t15SagL2 r g => exact .inl ⟨.num .sagL2 r, 0, g, rfl⟩
  | t16SagL3 r g => exact .inl ⟨.num .sagL3 r, 0, g, rfl⟩
  | t17SwellL1 r g => exact .inl ⟨.num .swellL1 r, 0, g, rfl⟩
  | t18SwellL2 r g => exact .inl ⟨.num .swellL2 r, 0, g, rfl⟩
  | t19SwellL3 r g => exact .inl ⟨.num .swellL3 r, 0, g, rfl⟩
  | t20Msg g => exact .inl ⟨.msg, 0, g, rfl⟩
  | t21VL1 r g => exact .inl ⟨.num .vL1 r, 0, g, rfl⟩
  | t22VL2 r g => exact .inl ⟨.num .vL2 r, 0, g, rfl⟩
  | t23VL3 r g => exact .inl ⟨.num .vL3 r, 0, g, rfl⟩
  | t24IL1 r g => exact .inl ⟨.num .iL1 r, 0, g, rfl⟩
  | t25IL2 r g => exact .inl ⟨.num .iL2 r, 0, g, rfl⟩
  | t26IL3 r g => exact .inl ⟨.num .iL3 r, 0, g, rfl⟩
  | t27PDelL1 r g => exact .inl ⟨.num .pDelL1 r, 0, g, rfl⟩
  | t28PDelL2 r g => exact .inl ⟨.num .pDelL2 r, 0, g, rfl⟩
  | t29PDelL3 r g => exact .inl ⟨.num .pDelL3 r, 0, g, rfl⟩
  | t30PProdL1 r g => exact .inl ⟨.num .pProdL1 r, 0, g, rfl⟩
  | t31PProdL2 r g => exact .inl ⟨.num .pProdL2 r, 0, g, rfl⟩
  | t32PProdL3 r g => exact .inl ⟨.num .pProdL3 r, 0, g, rfl⟩
  | t33DevTypeCode r n g => exact .inl ⟨.devTypeCode r, n, g, rfl⟩
  | t34DevEquipId n g => exact .inl ⟨.devEquipId, n, g, rfl⟩
  | t35DevReading w f n g => exact .inl ⟨.devReading w f, n, g, rfl⟩
  | unrecognised line => exact .inr ⟨line, rfl⟩
  | _ => cases h

/-- The only instruction at the port of line 0 is the header. -/
theorem line0_eq_header {i : Instr} (h : i.port = .line0) : ∃ g, i = .header g := by
  cases i with
  | header g => exact ⟨g, rfl⟩
  | _ => cases h

/-! ## What a line stores -/

/-- The record after a store. -/
def Store.apply : Store → Record → Record
  | .hdr t, r => r.withHdr t
  | .num d v, r => r.setNum d v
  | .ts t, r => r.withTs t
  | .equipId t, r => r.withEquipId t
  | .msg t, r => r.withMsg t
  | .log es, r => r.storeLog es
  | .devTypeCode k v, r => r.modifyDev k fun d => { d with typeCode := v }
  | .devEquipId k t, r => r.modifyDev k fun d => { d with equipId := t }
  | .devReading k stamp v u, r => r.modifyDev k fun d => { d with rdTs := stamp, rdVal := v, rdUnit := u }

/-- The record after a line: its store, if it has one. -/
def applyLine (c : Config) (i : Instr) (r : Record) : Record :=
  match stores c i with
  | some w => w.apply r
  | none => r

theorem applyLine_of_some {c : Config} {i : Instr} {w : Store} (r : Record) (h : stores c i = some w) :
    applyLine c i r = w.apply r := by simp [applyLine, h]

theorem applyLine_of_none {c : Config} {i : Instr} (r : Record) (h : stores c i = none) : applyLine c i r = r := by
  simp [applyLine, h]

theorem stores_toInstr (c : Config) (d : NumDest) (r : NumRule) (g : List Byte) :
    stores c (d.toInstr r g) = (xNum r g).map (.num d) := by cases d <;> rfl

/-- A commit of a value is a store of it. -/
theorem commit_eq_apply {α : Type} (v : Option α) (f : α → Store) (w : α → Record → Record)
    (hw : ∀ a r, w a r = (f a).apply r) (s : State) {c : Config} {i : Instr} (hi : stores c i = v.map f) :
    commit v w s = s.withRecord (applyLine c i s.record) := by
  cases v with
  | none => rw [applyLine_of_none _ hi, commit_none, State.withRecord_self]
  | some a => rw [applyLine_of_some _ hi, commit_some, hw]

/-- A routed commit is a store into the slot that the ordinal names. -/
theorem route_commit_eq_apply {α : Type} (n : Nat) (v : Option α) (f : Nat → α → Store)
    (w : Nat → α → Record → Record) (hw : ∀ k a r, w k a r = (f k a).apply r) (s : State) {i : Instr}
    (hi : stores s.cfg i = (slotOf s.cfg n).bind fun k => v.map (f k)) :
    route n (fun k => commit v (w k)) s = s.withRecord (applyLine s.cfg i s.record) := by
  unfold slotOf at hi
  obtain ⟨hn, h⟩ | ⟨h1, h2, h⟩ := route_cases n (fun k => commit v (w k)) s
  · rw [if_pos hn] at hi
    rw [h, applyLine_of_none _ hi, State.withRecord_self]
  · rw [if_neg (by omega)] at hi
    rw [h]
    exact commit_eq_apply v (f (n - 1)) _ (hw (n - 1)) s hi

/-- A row completes, and its whole effect is its store. -/
theorem exec_row (a : RowAction) (n : Nat) (g : List Byte) (s : State) :
    exec (a.toInstr n g) s = .next (s.withRecord (applyLine s.cfg (a.toInstr n g) s.record)) := by
  cases a with
  | num d r =>
    refine (exec_toInstr d r g s).trans (congrArg _ ?_)
    exact commit_eq_apply _ (.num d) _ (fun _ _ => rfl) s (stores_toInstr s.cfg d r g)
  | ts => exact congrArg _ (commit_eq_apply _ .ts _ (fun _ _ => rfl) s rfl)
  | equipId => exact congrArg _ (commit_eq_apply _ .equipId _ (fun _ _ => rfl) s rfl)
  | msg => exact congrArg _ (commit_eq_apply _ .msg _ (fun _ _ => rfl) s rfl)
  | pflog => exact congrArg _ (commit_eq_apply _ .log _ (fun _ _ => rfl) s rfl)
  | devTypeCode r => exact congrArg _ (route_commit_eq_apply n _ .devTypeCode _ (fun _ _ _ => rfl) s rfl)
  | devEquipId => exact congrArg _ (route_commit_eq_apply n _ .devEquipId _ (fun _ _ _ => rfl) s rfl)
  | devReading w f =>
    exact congrArg _ (route_commit_eq_apply n _ (fun k (x : List Byte × Word32 × List Byte) =>
      .devReading k x.1 x.2.1 x.2.2) _ (fun _ _ _ => rfl) s rfl)

theorem exec_header (g : List Byte) (s : State) :
    exec (.header g) s = .next (s.withRecord (s.record.withHdr (headerText s.cfg.hdrMax g))) := rfl

theorem exec_unrecognised (line : List Byte) (s : State) : exec (.unrecognised line) s = .next s := rfl

/-- Every line instruction completes, and its whole effect is its store. -/
theorem exec_line {i : Instr} (h : i.port = .line ∨ i.port = .line0) (s : State) :
    exec i s = .next (s.withRecord (applyLine s.cfg i s.record)) := by
  rcases h with h | h
  · obtain ⟨a, n, g, rfl⟩ | ⟨line, rfl⟩ := line_eq_toInstr_or_unrecognised h
    · exact exec_row a n g s
    · exact exec_unrecognised line s
  · obtain ⟨g, rfl⟩ := line0_eq_header h
    exact exec_header g s

/-- A row with nothing to store skips. -/
theorem exec_row_of_stores_none {a : RowAction} {n : Nat} {g : List Byte} {s : State}
    (h : stores s.cfg (a.toInstr n g) = none) : exec (a.toInstr n g) s = .next s := by
  rw [exec_row, applyLine_of_none _ h, State.withRecord_self]

/-- Settles O25: what a line does is what it stores. -/
theorem linesWriteOnlyTheRecord : Obligations.LinesWriteOnlyTheRecord := fun _ s h => ⟨_, exec_line h s⟩

/-- Settles O31, by the two reading rules of a written numeric field. -/
theorem numericFieldsDoNotAlias : Obligations.NumericFieldsDoNotAlias :=
  fun r d v => ⟨r.getNum_setNum_self d v, fun _ h => r.getNum_setNum_other v h⟩

end Sys2Proof.Machine
end

section
/-! PROOFS. The rows that write one number or one text of the main meter (42_parser.md R180 to R187, 43_fields_main.md),
the unrecognised line and the header. -/

namespace Sys2Proof.Machine

/-! ## Rows that skip -/

theorem xStr_of_not_mem (m : Nat) {g : List Byte} (h : openParen ∉ g) : xStr m g = none := by
  simp [xStr, after_eq_none.mpr h]

theorem xTs_of_not_mem {g : List Byte} (h : openParen ∉ g) : xTs g = none := by
  simp [xTs, after_eq_none.mpr h]

theorem xPflog_of_not_mem (skip npf : Nat) {g : List Byte} (h : openParen ∉ g) : xPflog skip npf g = none := by
  simp [xPflog, after_eq_none.mpr h]

theorem xReading_of_not_mem (w f m : Nat) {g : List Byte} (h : openParen ∉ g) : xReading w f m g = none := by
  simp [xReading, after_eq_none.mpr h]

/-- Every rule begins at the first `'('`, so a row without one has nothing to store (R180). -/
theorem stores_row_of_not_mem (c : Config) (a : RowAction) (n : Nat) {g : List Byte} (h : openParen ∉ g) :
    stores c (a.toInstr n g) = none := by
  cases a with
  | num d r => exact (stores_toInstr c d r g).trans (by rw [xNum_of_not_mem h, Option.map_none])
  | ts => simp [RowAction.toInstr, stores, xTs_of_not_mem h]
  | equipId => simp [RowAction.toInstr, stores, xStr_of_not_mem _ h]
  | msg => simp [RowAction.toInstr, stores, xStr_of_not_mem _ h]
  | pflog => simp [RowAction.toInstr, stores, xPflog_of_not_mem _ _ h]
  | devTypeCode r => simp [RowAction.toInstr, stores, xNum_of_not_mem h]
  | devEquipId => simp [RowAction.toInstr, stores, xStr_of_not_mem _ h]
  | devReading w f => simp [RowAction.toInstr, stores, xReading_of_not_mem _ _ _ h]

/-- Settles O26: without a `'('` no row has anything to store. -/
theorem rowsWithoutAGroupSkip : Obligations.RowsWithoutAGroupSkip := by
  intro s g hg
  have skips (a : RowAction) (n : Nat) : exec (a.toInstr n g) s = .next s :=
    exec_row_of_stores_none (stores_row_of_not_mem s.cfg a n hg)
  exact ⟨fun d r => skips (.num d r) 0, skips .ts 0, skips .equipId 0, skips .pflog 0, skips .msg 0,
    fun n => ⟨fun r => skips (.devTypeCode r) n, skips .devEquipId n, fun w f => skips (.devReading w f) n⟩⟩

/-- A sub-device row whose ordinal names no slot has nothing to store (44_fields_log_subdev.md R241). -/
theorem stores_row_of_out {c : Config} {a : RowAction} {n : Nat} (g : List Byte) (ha : a.isSubDevice = true)
    (hn : n = 0 ∨ c.nsub < n) : stores c (a.toInstr n g) = none := by
  have hslot : slotOf c n = none := if_pos hn
  cases a with
  | devTypeCode r => simp [RowAction.toInstr, stores, hslot]
  | devEquipId => simp [RowAction.toInstr, stores, hslot]
  | devReading w f => simp [RowAction.toInstr, stores, hslot]
  | _ => cases ha

/-- Settles O35: an ordinal out of range names no slot. -/
theorem ordinalOutOfRangeIsDropped : Obligations.OrdinalOutOfRangeIsDropped := by
  intro s n g hn
  have dropped (a : RowAction) (ha : a.isSubDevice = true) : exec (a.toInstr n g) s = .next s :=
    exec_row_of_stores_none (stores_row_of_out g ha hn)
  exact ⟨fun r => dropped (.devTypeCode r) rfl, dropped .devEquipId rfl, fun w f => dropped (.devReading w f) rfl⟩

/-! ## Unrecognised lines -/

theorem findRow_eq_none {table : List TagRow} {line : List Byte} :
    findRow table line = none ↔ ∀ r ∈ table, matchPattern r.pattern line = none := by
  induction table with
  | nil => simp [findRow]
  | cons r rs ih => cases h : matchPattern r.pattern line <;> simp [findRow, h, ih]

theorem toInstr_ne_unrecognised (a : RowAction) (n : Nat) (g line : List Byte) :
    a.toInstr n g ≠ .unrecognised line := by
  cases a with
  | num d r => cases d <;> nofun
  | _ => nofun

/-- Settles O40: the line decoder answers UNRECOGNISED exactly where the table has no row for the line. -/
theorem unrecognisedLinesDoNothing : Obligations.UnrecognisedLinesDoNothing := by
  refine ⟨fun s line => exec_unrecognised line s, fun table line => ?_⟩
  rw [← findRow_eq_none, decodeLine]
  cases findRow table line with
  | none => simp
  | some ag => simpa using toInstr_ne_unrecognised ag.1 (ordinalOf line) ag.2 line

/-! ## Rows that write one number -/

theorem word32_of_lt {v : Nat} (h : v < 2 ^ 32) : word32 v = some (BitVec.ofNat 32 v) := if_pos h

theorem word32_of_le {v : Nat} (h : 2 ^ 32 ≤ v) : word32 v = none := if_neg (by omega)

theorem exec_num_of_some {d : NumDest} {r : NumRule} {g : List Byte} {v : Word32} (s : State) (h : xNum r g = some v) :
    exec (d.toInstr r g) s = .next (s.withRecord (s.record.setNum d v)) := by
  rw [exec_toInstr, storeNumber, h, commit_some]

theorem exec_num_of_none {d : NumDest} {r : NumRule} {g : List Byte} (s : State) (h : xNum r g = none) :
    exec (d.toInstr r g) s = .next s := by
  rw [exec_toInstr, storeNumber, h, commit_none]

/-- A row whose rule yields the number `v` stores it if it has 32 bits, and skips otherwise (R187). -/
theorem exec_num_of_word32 {d : NumDest} {r : NumRule} {g : List Byte} {v : Nat} (s : State)
    (h : xNum r g = word32 v) :
    exec (d.toInstr r g) s =
      .next (if v < 2 ^ 32 then s.withRecord (s.record.setNum d (BitVec.ofNat 32 v)) else s) := by
  split
  case isTrue hv => exact exec_num_of_some s (h.trans (word32_of_lt hv))
  case isFalse hv => exact exec_num_of_none s (h.trans (word32_of_le (Nat.le_of_not_lt hv)))

/-- Settles O27: the primitive answers the digit run's number, and the row stores what the primitive answers. -/
theorem intRowsStoreTheDigitRun : Obligations.IntRowsStoreTheDigitRun := by
  intro d s pre ds tail hpre hds htail
  have hnone : xNum .int pre = none := xNum_of_not_mem hpre .int
  have hrun : xNum .int (pre ++ openParen :: ds ++ tail) = if ds = [] then none else word32 (dec ds) := by
    rw [List.append_assoc, List.cons_append]
    exact xInt_text hpre hds htail
  refine ⟨hnone, ?_, exec_num_of_none s hnone, ?_⟩
  · rw [hrun, word32]
    by_cases h : ds = [] <;> simp [h]
  · by_cases h : ds = []
    · rw [if_pos h] at hrun
      simpa [h] using exec_num_of_none s hrun
    · rw [if_neg h] at hrun
      simpa [h] using exec_num_of_word32 s hrun

/-- Settles O28: the numeral's value is extracted, with and without a fraction, and stored if it has 32 bits. -/
theorem fixRowsStoreTheScaledNumber : Obligations.FixRowsStoreTheScaledNumber := by
  intro d s pre ws fs tail hpre hws hfs
  constructor
  · intro hne
    refine exec_num_of_word32 s ?_
    rw [show pre ++ 0x28#8 :: ws ++ 0x2E#8 :: fs ++ tail = pre ++ openParen :: (ws ++ fullStop :: (fs ++ tail)) by simp]
    exact (xFix_text _ hpre _ _).trans (xFixAt_text tail hws hfs hne)
  · refine exec_num_of_word32 s ?_
    rw [List.append_assoc, List.cons_append]
    exact (xFix_text _ hpre _ _).trans (xFixAt_zero_text tail hws)

theorem all_isDigit_eq_false {l : List Byte} {k : Nat} {b : Byte} (hk : l[k]? = some b) (hb : isDigit b = false) :
    l.all isDigit = false :=
  List.all_eq_false.mpr ⟨b, List.mem_of_getElem? hk, by simp [hb]⟩

/-- Where no `FIX(W,F)` numeral stands, the primitive skips (R183). -/
theorem xFixAt_of_noFixNumeral {w f : Nat} {p : List Byte} (h : NoFixNumeral w f p) : xFixAt w f p = none := by
  have hwhole {k : Nat} {b : Byte} (hk : k < w) (hb : p[k]? = some b) (hd : isDigit b = false) :
      (p.take w).all isDigit = false :=
    all_isDigit_eq_false ((List.getElem?_take_of_lt hk).trans hb) hd
  unfold xFixAt
  by_cases hf : f = 0
  · rw [if_pos hf, if_neg]
    rintro ⟨hlen, hall⟩
    rcases h with ⟨k, b, hk, hb, hd⟩ | h
    · simp [hwhole hk hb hd] at hall
    · rw [if_pos hf] at h
      omega
  · rw [if_neg hf, if_neg]
    rintro ⟨hlen, hpoint, hall, hfrac⟩
    rcases h with ⟨k, b, hk, hb, hd⟩ | h
    · simp [hwhole hk hb hd] at hall
    · rw [if_neg hf] at h
      obtain h | h | ⟨k, b, hwk, hk, hb, hd⟩ := h
      · omega
      · exact h hpoint
      · have hbyte : ((p.drop (w + 1)).take f)[k - (w + 1)]? = some b := by
          rw [List.getElem?_take_of_lt (by omega), List.getElem?_drop, show w + 1 + (k - (w + 1)) = k by omega, hb]
        simp [all_isDigit_eq_false hbyte hd] at hfrac

/-- Settles O29: a malformed numeral yields no number. -/
theorem fixRowsSkipMalformedNumerals : Obligations.FixRowsSkipMalformedNumerals :=
  fun _ s w f _ p hpre hp => exec_num_of_none s ((xFix_text p hpre w f).trans (xFixAt_of_noFixNumeral hp))

/-! ## Rows that write one text -/

theorem exec_t02Ts (g : List Byte) (s : State) :
    exec (.t02Ts g) s = .next (commit (xTs g) (fun t r => r.withTs t) s) := rfl

theorem exec_t03EquipId (g : List Byte) (s : State) :
    exec (.t03EquipId g) s = .next (commit (xStr s.cfg.idMax g) (fun t r => r.withEquipId t) s) := rfl

theorem exec_t20Msg (g : List Byte) (s : State) :
    exec (.t20Msg g) s = .next (commit (xStr s.cfg.msgMax g) (fun t r => r.withMsg t) s) := rfl

theorem xTs_text {pre : List Byte} (p : List Byte) (hpre : openParen ∉ pre) :
    xTs (pre ++ openParen :: p) = if 13 ≤ p.length then some (p.take 13) else none := by
  rw [xTs, after_append p hpre]
  rfl

theorem xStr_of_short (m : Nat) {pre p : List Byte} (hpre : openParen ∉ pre) (hp : p.length < 2) :
    xStr m (pre ++ openParen :: p) = none := by
  rw [xStr, after_append p hpre]
  exact if_neg (by omega)

theorem xStr_of_text (m : Nat) {pre : List Byte} (text : List Byte) (x y : Byte) (hpre : openParen ∉ pre) :
    xStr m (pre ++ openParen :: text ++ [x, y]) = some (text.take m) := by
  rw [List.append_assoc, List.cons_append, xStr_text m text x y hpre]

/-- Settles O32: each primitive on the text it is given, and its commit. -/
theorem textRowsCopyTheirBytes : Obligations.TextRowsCopyTheirBytes := by
  intro s pre p text x y hpre
  refine ⟨?stamp, ?equipId, ?msg, fun hp => ⟨?shortId, ?shortMsg⟩⟩
  case stamp =>
    rw [exec_t02Ts, xTs_text p hpre]
    split <;> rfl
  case equipId => rw [exec_t03EquipId, xStr_of_text _ text x y hpre, commit_some]
  case msg => rw [exec_t20Msg, xStr_of_text _ text x y hpre, commit_some]
  case shortId => rw [exec_t03EquipId, xStr_of_short _ hpre hp, commit_none]
  case shortMsg => rw [exec_t20Msg, xStr_of_short _ hpre hp, commit_none]

/-! ## The header -/

theorem stripReturn_concat (text : List Byte) : stripReturn (text ++ [carriageReturn]) = text := by
  simp [stripReturn]

theorem stripReturn_of_ne {text : List Byte} (h : text.getLast? ≠ some carriageReturn) : stripReturn text = text :=
  if_neg h

/-- What stands from the end marker on is no part of the text before it. -/
theorem before_endMarker {text rest : List Byte} (h : endMarker ∉ text) (hr : rest = [] ∨ ∃ u, rest = endMarker :: u) :
    before endMarker (text ++ rest) = text := by
  obtain rfl | ⟨u, rfl⟩ := hr
  · rw [List.append_nil, before_eq_self h]
  · exact before_append u h

/-- The header text with one `0x0D` behind it (R174). -/
theorem headerText_return (m : Nat) {text rest : List Byte} (h : endMarker ∉ text)
    (hr : rest = [] ∨ ∃ u, rest = endMarker :: u) :
    headerText m (text ++ carriageReturn :: rest) = text.take m := by
  have hb : before endMarker (text ++ [carriageReturn] ++ rest) = text ++ [carriageReturn] :=
    before_endMarker (List.not_mem_append h (by decide)) hr
  rw [List.append_assoc, List.singleton_append] at hb
  rw [headerText, hb, stripReturn_concat, truncate]

/-- The header text without one (R174). -/
theorem headerText_plain (m : Nat) {text rest : List Byte} (h : endMarker ∉ text)
    (hr : rest = [] ∨ ∃ u, rest = endMarker :: u) (hl : text.getLast? ≠ some carriageReturn) :
    headerText m (text ++ rest) = text.take m := by
  rw [headerText, before_endMarker h hr, stripReturn_of_ne hl, truncate]

/-- Settles O41, by the header text with and without a `0x0D`. -/
theorem headerLineStoresItsText : Obligations.HeaderLineStoresItsText := by
  intro s text rest h hr
  refine ⟨?_, fun hl => ?_⟩
  · rw [exec_header, headerText_return _ h hr]
  · rw [exec_header, headerText_plain _ h hr hl]

end Sys2Proof.Machine
end

section
/-! PROOFS. The sub-device rows T33 to T35 (44_fields_log_subdev.md R241 to R244): the slot an ordinal names, and the
three parts of a reading. -/

namespace Sys2Proof.Machine

/-! ## The slot of an ordinal -/

theorem exec_t33DevTypeCode (r : NumRule) (n : Nat) (g : List Byte) (s : State) :
    exec (.t33DevTypeCode r n g) s = .next (route n (fun k => commit (xNum r g) fun v rec =>
      rec.modifyDev k fun d => { d with typeCode := v }) s) := rfl

theorem exec_t34DevEquipId (n : Nat) (g : List Byte) (s : State) :
    exec (.t34DevEquipId n g) s = .next (route n (fun k => commit (xStr s.cfg.idMax g) fun t rec =>
      rec.modifyDev k fun d => { d with equipId := t }) s) := rfl

theorem exec_t35DevReading (w f n : Nat) (g : List Byte) (s : State) :
    exec (.t35DevReading w f n g) s = .next (route n (fun k => commit (xReading w f s.cfg.unitMax g)
      fun (ts, v, u) rec => rec.modifyDev k fun d => { d with rdTs := ts, rdVal := v, rdUnit := u }) s) := rfl

/-- A routed commit of nothing changes nothing, whatever the ordinal. -/
theorem route_commit_none {α : Type} (n : Nat) (w : Nat → α → Record → Record) (s : State) :
    route n (fun k => commit none (w k)) s = s := by
  obtain ⟨-, h⟩ | ⟨-, -, h⟩ := route_cases n (fun k => commit none (w k)) s <;> rw [h]
  exact commit_none _ s

/-- A change of one existing slot, and of no other. -/
theorem modify_slot {dev : List Device} {k : Nat} {old : Device} (h : dev[k]? = some old) (f : Device → Device) :
    (dev.modify k f)[k]? = some (f old) ∧ ∀ j, j ≠ k → (dev.modify k f)[j]? = dev[j]? := by
  constructor
  · simp [h]
  · intro j hj
    simp [Ne.symm hj]

/-- Settles O36: in range the routed commit writes its slot, with a value to store, and otherwise nothing. -/
theorem deviceTypeAndIdRowsWriteTheirSlot : Obligations.DeviceTypeAndIdRowsWriteTheirSlot := by
  intro s n r g pre text x y old _ h1 hn hold hpre
  refine ⟨fun v hv => ?code, fun hv => ?noCode, fun htext => ?noText, ?text⟩
  case code =>
    rw [exec_t33DevTypeCode, route_of_in _ h1 hn, hv, commit_some]
    exact ⟨_, rfl, modify_slot hold _⟩
  case noCode => rw [exec_t33DevTypeCode, hv, route_commit_none]
  case noText => rw [exec_t34DevEquipId, xStr_of_short _ hpre htext, route_commit_none]
  case text =>
    rw [exec_t34DevEquipId, route_of_in _ h1 hn, xStr_of_text _ text x y hpre, commit_some]
    exact ⟨_, rfl, modify_slot hold _⟩

/-! ## The parts of a reading -/

/-- A byte that is no digit is not in a digit string. -/
theorem AllDigits.not_mem {ds : List Byte} (h : AllDigits ds) {b : Byte} (hb : isDigit b = false) : b ∉ ds :=
  fun hmem => by simp [h b hmem] at hb

/-- The fraction of a numeral: nothing, or a point and its digits. -/
def fractionText (fs : List Byte) : List Byte := if fs = [] then [] else fullStop :: fs

@[simp] theorem fractionText_nil : fractionText [] = [] := rfl

@[simp] theorem fractionText_cons (b : Byte) (fs : List Byte) : fractionText (b :: fs) = fullStop :: b :: fs := rfl

theorem not_mem_fractionText {fs : List Byte} (h : AllDigits fs) {b : Byte} (hb : isDigit b = false)
    (hp : b ≠ fullStop) : b ∉ fractionText fs := by
  cases fs with
  | nil => simp
  | cons f fs => exact List.not_mem_cons_of_ne_of_not_mem hp (h.not_mem hb)

/-- A numeral, with or without a fraction, yields the number of all its digits. -/
theorem xFixAt_numeral {ws fs : List Byte} (tail : List Byte) (hw : AllDigits ws) (hf : AllDigits fs) :
    xFixAt ws.length fs.length (ws ++ fractionText fs ++ tail) = word32 (dec (ws ++ fs)) := by
  cases fs with
  | nil => simpa using xFixAt_zero_text tail hw
  | cons f fs => simpa using xFixAt_text tail hw hf (List.cons_ne_nil f fs)

/-- The unit stands between the first `'*'` and the next `')'`. -/
theorem xUnit_text {mid u : List Byte} (tail : List Byte) (hmid : asterisk ∉ mid) (hu : closeParen ∉ u) :
    xUnit (mid ++ asterisk :: (u ++ closeParen :: tail)) = some u := by
  rw [xUnit, after_append _ hmid]
  exact (if_pos (by simp)).trans (congrArg some (before_append tail hu))

theorem xUnit_of_no_asterisk {b : List Byte} (h : asterisk ∉ b) : xUnit b = none := by
  rw [xUnit, after_eq_none.mpr h]

theorem xUnit_of_no_closeParen {v u : List Byte} (hv : asterisk ∉ v) (hu : closeParen ∉ u) :
    xUnit (v ++ asterisk :: u) = none := by
  rw [xUnit, after_append u hv]
  exact if_neg hu

theorem xTsAt_of_le {a : List Byte} (h : 13 ≤ a.length) : xTsAt a = some (a.take 13) := if_pos h

theorem xTsAt_of_lt {a : List Byte} (h : a.length < 13) : xTsAt a = none := if_neg (Nat.not_le.mpr h)

/-- A reading behind its first `'('`: the stamp, and behind the second `'('` the number and the unit. -/
theorem xReading_text {w f m : Nat} {pre c b : List Byte} (hpre : openParen ∉ pre) (hc : openParen ∉ c)
    (hlen : 13 ≤ (c ++ openParen :: b).length) {v : Word32} {u : List Byte} (hv : xFixAt w f b = some v)
    (hu : xUnit b = some u) :
    xReading w f m (pre ++ openParen :: (c ++ openParen :: b)) =
      some ((c ++ openParen :: b).take 13, v, u.take m) := by
  simp only [xReading, after_append _ hpre, xTsAt_of_le hlen, after_append b hc, hv, hu, truncate]

/-- A reading without a whole stamp is none. -/
theorem xReading_of_short (w f m : Nat) {pre a : List Byte} (hpre : openParen ∉ pre) (ha : a.length < 13) :
    xReading w f m (pre ++ openParen :: a) = none := by
  simp only [xReading, after_append a hpre, xTsAt_of_lt ha]

/-- A reading without a second group is none. -/
theorem xReading_of_one_group (w f m : Nat) {pre a : List Byte} (hpre : openParen ∉ pre) (ha : openParen ∉ a) :
    xReading w f m (pre ++ openParen :: a) = none := by
  simp only [xReading, after_append a hpre, after_eq_none.mpr ha]
  cases xTsAt a <;> rfl

/-- A reading whose second group lacks a number or a unit is none. -/
theorem xReading_of_no_value {w f : Nat} (m : Nat) {pre c b : List Byte} (hpre : openParen ∉ pre) (hc : openParen ∉ c)
    (h : xFixAt w f b = none ∨ xUnit b = none) :
    xReading w f m (pre ++ openParen :: (c ++ openParen :: b)) = none := by
  simp only [xReading, after_append _ hpre, after_append b hc]
  cases xTsAt (c ++ openParen :: b) with
  | none => rfl
  | some ts => obtain h | h := h <;> simp [h]

/-- Settles O37: the three parts of the reading are found, and the commit writes them into the slot. -/
theorem deviceReadingRowWritesItsSlot : Obligations.DeviceReadingRowWritesItsSlot := by
  intro s n pre c ws fs mid u tail a old _ h1 hn hpre hc hws hfs hfits hmid hu ha hlen hold
  obtain rfl : a = c ++ openParen :: (ws ++ fractionText fs ++ (mid ++ asterisk :: (u ++ closeParen :: tail))) := by
    simp [ha, fractionText]
  have hnoStar : asterisk ∉ ws ++ fractionText fs ++ mid :=
    List.not_mem_append (List.not_mem_append (hws.not_mem (by decide))
      (not_mem_fractionText hfs (by decide) (by decide))) hmid
  have hunit := xUnit_text tail hnoStar hu
  rw [List.append_assoc _ mid] at hunit
  rw [exec_t35DevReading, route_of_in _ h1 hn,
    xReading_text hpre hc hlen ((xFixAt_numeral _ hws hfs).trans (word32_of_lt hfits)) hunit, commit_some]
  exact ⟨_, rfl, modify_slot hold _⟩

/-- Settles O38: whichever part is missing, the reading is none and the commit writes nothing. -/
theorem incompleteReadingWritesNothing : Obligations.IncompleteReadingWritesNothing := by
  intro s w f n pre a hpre ha
  suffices h : xReading w f s.cfg.unitMax (pre ++ openParen :: a) = none by
    rw [exec_t35DevReading, h, route_commit_none]
  obtain ha | ha | ⟨c, b, rfl, hc, hb⟩ := ha
  · exact xReading_of_short w f _ hpre ha
  · exact xReading_of_one_group w f _ hpre ha
  refine xReading_of_no_value _ hpre hc ?_
  obtain hb | ⟨ws, fs, t, hws, hfs, rfl, rfl, rfl, hbig⟩ | hb | ⟨v, u, rfl, hv, hu⟩ := hb
  · exact .inl (xFixAt_of_noFixNumeral hb)
  · exact .inl ((xFixAt_numeral t hws hfs).trans (word32_of_le hbig))
  · exact .inr (xUnit_of_no_asterisk hb)
  · exact .inr (xUnit_of_no_closeParen hv hu)

end Sys2Proof.Machine
end

section
/-! PROOFS. The power-failure log row T13 (44_fields_log_subdev.md R240): the groups it skips, the entries it finds, and
what ends them. -/

namespace Sys2Proof.Machine

/-! ## Durations -/

theorem digits_of_runEnds {p : List Byte} (h : RunEnds p) : digits p = [] :=
  digits_append (ds := []) (by simp [AllDigits]) h

theorem fractionDigits_point (r : List Byte) : fractionDigits (fullStop :: r) = digits r := by
  rw [fractionDigits, if_pos rfl]

theorem fractionDigits_of_head_ne {tail : List Byte} (h : tail.head? ≠ some fullStop) : fractionDigits tail = [] := by
  cases tail with
  | nil => rfl
  | cons b r => exact if_neg fun hb => h (congrArg some hb)

/-- What `X_DEC` answers on whole digits and what follows them (42_parser.md R186). -/
theorem xDec_text {ds tail fs : List Byte} (hd : AllDigits ds) (ht : RunEnds tail) (hf : fractionDigits tail = fs) :
    xDec (ds ++ tail) =
      if ds = [] then none
      else if fs.length ≤ 15 then (word32 (dec (ds ++ fs))).map fun m => (m, BitVec.ofNat 4 fs.length)
      else none := by
  simp only [xDec, digits_append hd ht, pastDigits_append hd ht, hf]

/-- A duration of too large a number or of too many fraction digits is none. -/
theorem xDec_of_unfit {ds tail fs : List Byte} (hd : AllDigits ds) (ht : RunEnds tail) (hf : fractionDigits tail = fs)
    (h : 2 ^ 32 ≤ dec (ds ++ fs) ∨ 15 < fs.length) : xDec (ds ++ tail) = none := by
  rw [xDec_text hd ht hf]
  obtain h | h := h
  · rw [word32_of_le h, Option.map_none, ite_self, ite_self]
  · rw [if_neg (Nat.not_le.mpr h), ite_self]

/-- Where no duration stands, `X_DEC` skips. -/
theorem xDec_of_noDuration {p : List Byte} (h : NoDuration p) : xDec p = none := by
  obtain h | ⟨ds, rest, hd, hr, ⟨rfl, hhead, hbig⟩ | ⟨fs, hf, rfl, h⟩⟩ := h
  · simp [xDec, digits_of_runEnds h]
  · exact xDec_of_unfit hd hr (fractionDigits_of_head_ne hhead) (.inl (by rwa [List.append_nil]))
  · rw [List.append_assoc]
    exact xDec_of_unfit hd (runEnds_cons _ (by decide)) ((fractionDigits_point _).trans (digits_append hf hr)) h

/-! ## Groups -/

/-- The text is empty or begins with a group. -/
def AtGroup (text : List Byte) : Prop := ∀ b, text.head? = some b → b = openParen

theorem atGroup_nil : AtGroup [] := nofun

theorem atGroup_cons (t : List Byte) : AtGroup (openParen :: t) := by rintro b ⟨⟩; rfl

/-- What ends a digit run before a group still ends it with the group behind it. -/
theorem RunEnds.append {a b : List Byte} (ha : RunEnds a) (hb : AtGroup b) : RunEnds (a ++ b) := by
  cases a with
  | nil => intro x hx; rw [hb x hx]; decide
  | cons x a => exact runEnds_cons _ (ha x rfl)

theorem groupWire_flatten_cons (t : List Byte) (ts : List (List Byte)) (rest : List Byte) :
    ((t :: ts).map groupWire).flatten ++ rest = openParen :: (t ++ ((ts.map groupWire).flatten ++ rest)) := by
  simp [groupWire]

theorem atGroup_groups (ts : List (List Byte)) {rest : List Byte} (h : AtGroup rest) :
    AtGroup ((ts.map groupWire).flatten ++ rest) := by
  cases ts with
  | nil => exact h
  | cons t ts => rw [groupWire_flatten_cons]; exact atGroup_cons _

/-- Skipping groups leaves what follows them, behind the rest of the last one. -/
theorem skipGroups_text {junk : List Byte} {ts : List (List Byte)} (rest : List Byte) (hj : openParen ∉ junk)
    (ht : ∀ t ∈ ts, openParen ∉ t) :
    ∃ junk', openParen ∉ junk' ∧
      skipGroups ts.length (junk ++ ((ts.map groupWire).flatten ++ rest)) = some (junk' ++ rest) := by
  induction ts generalizing junk with
  | nil => exact ⟨junk, hj, rfl⟩
  | cons t ts ih =>
    obtain ⟨junk', hj', h⟩ := ih (ht t List.mem_cons_self) fun u hu => ht u (List.mem_cons_of_mem t hu)
    refine ⟨junk', hj', ?_⟩
    rw [groupWire_flatten_cons, List.length_cons, skipGroups, after_append _ hj]
    exact h

/-- With fewer groups than asked for there is nothing behind them. -/
theorem skipGroups_of_count_lt {k : Nat} {cur : List Byte} (h : cur.count openParen < k) : skipGroups k cur = none := by
  induction k generalizing cur with
  | zero => cases h
  | succ k ih =>
    rw [skipGroups]
    by_cases hmem : openParen ∈ cur
    · obtain ⟨pre, p, rfl, hpre⟩ := List.eq_append_cons_of_mem hmem
      rw [after_append p hpre]
      rw [List.count_append, List.count_cons_self] at h
      exact ih (by omega)
    · rw [after_eq_none.mpr hmem]

/-! ## Entries -/

/-- What follows the first `'('` of an entry. -/
def LogText.inside (e : LogText) (more : List Byte) : List Byte :=
  e.head ++ openParen :: (e.ds ++ (fractionText e.fs ++ (e.rest ++ more)))

/-- What follows the second `'('` of an entry, up to the next entry. -/
def LogText.duration (e : LogText) : List Byte := e.ds ++ (fractionText e.fs ++ e.rest)

theorem logWire_cons (e : LogText) (es : List LogText) (tail : List Byte) :
    logWire (e :: es) tail = openParen :: e.inside (logWire es tail) := by
  simp [logWire, LogText.wire, LogText.inside, fractionText]

theorem NoEntry.atGroup {tail : List Byte} (h : NoEntry tail) : AtGroup tail := by
  obtain rfl | ⟨u, rfl, -⟩ := h
  · exact atGroup_nil
  · exact atGroup_cons u

theorem atGroup_logWire (es : List LogText) {tail : List Byte} (h : AtGroup tail) : AtGroup (logWire es tail) := by
  cases es with
  | nil => exact h
  | cons e es => rw [logWire_cons]; exact atGroup_cons _

/-- No group begins in what follows the second `'('` of an entry. -/
theorem LogText.Ok.not_mem_duration {e : LogText} (h : e.Ok) : openParen ∉ e.duration :=
  List.not_mem_append (h.whole.1.not_mem (by decide))
    (List.not_mem_append (not_mem_fractionText h.fraction.1 (by decide) (by decide)) h.rest)

/-- The digits of an entry's duration end where its text says, whatever entry comes next. -/
theorem LogText.Ok.runEnds_fraction {e : LogText} (h : e.Ok) {more : List Byte} (hm : AtGroup more) :
    RunEnds (fractionText e.fs ++ (e.rest ++ more)) := by
  cases e.fs with
  | nil => exact h.ends.1.append hm
  | cons f fs => exact runEnds_cons _ (by decide)

theorem LogText.Ok.fractionDigits {e : LogText} (h : e.Ok) {more : List Byte} (hm : AtGroup more) :
    fractionDigits (fractionText e.fs ++ (e.rest ++ more)) = e.fs := by
  obtain ⟨hends, hpoint⟩ := h.ends
  cases hfs : e.fs with
  | cons f fs =>
    have hdigits := digits_append (hfs ▸ h.fraction.1) (hends.append hm)
    rwa [fractionText_cons, List.cons_append, fractionDigits_point]
  | nil =>
    cases hrest : e.rest with
    | nil => exact fractionDigits_of_head_ne fun hb => absurd (hm _ hb) (by decide)
    | cons b t =>
      by_cases hb : b = fullStop
      · subst hb
        exact (fractionDigits_point _).trans (digits_of_runEnds ((hpoint hfs t hrest).append hm))
      · exact fractionDigits_of_head_ne fun h => hb (Option.some.inj h)

/-- One entry is found, and the cursor is behind its second `'('`. -/
theorem xEntry_text {e : LogText} (h : e.Ok) {junk more : List Byte} (hj : openParen ∉ junk) (hm : AtGroup more)
    (hlen : 13 ≤ (e.inside more).length) :
    xEntry (junk ++ openParen :: e.inside more) = some (e.entry ((e.inside more).take 13), e.duration ++ more) := by
  have hdec := xDec_text h.whole.1 (h.runEnds_fraction hm) (h.fractionDigits hm)
  rw [if_neg h.whole.2, if_pos h.fraction.2, word32_of_lt h.fits, Option.map_some] at hdec
  rw [xEntry, after_append _ hj]
  simp only [xTsAt_of_le hlen]
  rw [LogText.inside, after_append _ h.head]
  simp only [hdec, Option.map_some, LogText.entry, LogText.duration, List.append_assoc]

/-- Where no entry stands, none is found. -/
theorem xEntry_of_noEntry {junk tail : List Byte} (hj : openParen ∉ junk) (h : NoEntry tail) :
    xEntry (junk ++ tail) = none := by
  obtain rfl | ⟨u, rfl, h⟩ := h
  · rw [List.append_nil, xEntry, after_eq_none.mpr hj]
  rw [xEntry, after_append u hj]
  obtain h | h | ⟨c, p, rfl, hc, hp⟩ := h
  · simp only [xTsAt_of_lt h]
  · simp only [after_eq_none.mpr h]
    cases xTsAt u <;> rfl
  · simp only [after_append p hc]
    cases xTsAt (c ++ openParen :: p) with
    | none => rfl
    | some ts => simp only [xDec_of_noDuration hp, Option.map_none]

/-- What the log stores for these entries, each with its own stamp. -/
def logEntries : List LogText → List Byte → List LogEntry
  | [], _ => []
  | e :: es, tail => e.entry (logStamp (logWire (e :: es) tail)) :: logEntries es tail

theorem length_logEntries (es : List LogText) (tail : List Byte) : (logEntries es tail).length = es.length := by
  induction es with
  | nil => rfl
  | cons e es ih => rw [logEntries, List.length_cons, ih, List.length_cons]

theorem getElem?_logEntries {es : List LogText} {i : Nat} {e : LogText} (tail : List Byte) (h : es[i]? = some e) :
    (logEntries es tail)[i]? = some (e.entry (logStamp (logWire (es.drop i) tail))) := by
  induction es generalizing i with
  | nil => cases h
  | cons e' es ih =>
    cases i with
    | zero => cases h; rfl
    | succ i => exact ih h

/-- The entries found are the first of those on the wire (44_fields_log_subdev.md R240). -/
theorem xEntries_text {es : List LogText} {tail junk : List Byte} (k : Nat) (hes : ∀ e ∈ es, e.Ok) (ht : NoEntry tail)
    (hlen : ∀ i, i < es.length → 13 < (logWire (es.drop i) tail).length) (hj : openParen ∉ junk) :
    xEntries k (junk ++ logWire es tail) = (logEntries es tail).take k := by
  induction es generalizing junk k with
  | nil =>
    cases k with
    | zero => rfl
    | succ k => simp [xEntries, logWire, logEntries, xEntry_of_noEntry hj ht]
  | cons e es ih =>
    cases k with
    | zero => rfl
    | succ k =>
      have he := hes e List.mem_cons_self
      have hlen0 := hlen 0 (Nat.succ_pos _)
      rw [List.drop_zero, logWire_cons, List.length_cons] at hlen0
      have hentry := xEntry_text he hj (atGroup_logWire es ht.atGroup) (Nat.le_of_lt_succ hlen0)
      have hrest := ih k (fun e' h => hes e' (List.mem_cons_of_mem e h))
        (fun i hi => hlen (i + 1) (Nat.succ_lt_succ hi)) he.not_mem_duration
      rw [logEntries, List.take_succ_cons, logWire_cons, xEntries, hentry, ← hrest]
      rfl

/-! ## The row -/

theorem exec_t13Pflog (g : List Byte) (s : State) :
    exec (.t13Pflog g) s =
      .next (commit (xPflog s.cfg.pflogSkip s.cfg.npf g) (fun es r => r.storeLog es) s) := rfl

/-- What the log row extracts from a count, the groups to skip and the entries (30_encoding.md R111). -/
theorem xPflog_text {pre cs lead : List Byte} {groups : List (List Byte)} {es : List LogText} {tail : List Byte}
    (npf : Nat) (hpre : openParen ∉ pre) (hcs : AllDigits cs) (hne : cs ≠ []) (hlead : openParen ∉ lead)
    (hends : RunEnds lead) (hgroups : ∀ t ∈ groups, openParen ∉ t) (hes : ∀ e ∈ es, e.Ok) (ht : NoEntry tail)
    (hlen : ∀ i, i < es.length → 13 < (logWire (es.drop i) tail).length) :
    xPflog groups.length npf
        (pre ++ openParen :: (cs ++ (lead ++ ((groups.map groupWire).flatten ++ logWire es tail)))) =
      some ((logEntries es tail).take (min (dec cs) npf)) := by
  have hrun : RunEnds (lead ++ ((groups.map groupWire).flatten ++ logWire es tail)) :=
    hends.append (atGroup_groups groups (atGroup_logWire es ht.atGroup))
  obtain ⟨junk, hj, hskip⟩ := skipGroups_text (junk := cs ++ lead) (logWire es tail)
    (List.not_mem_append (hcs.not_mem (by decide)) hlead) hgroups
  rw [List.append_assoc] at hskip
  rw [xPflog, after_append _ hpre]
  simp only [digits_append hcs hrun, if_neg hne, hskip, Option.map_some, xEntries_text _ hes ht hlen hj]

/-- Settles O33: the entries are extracted, and storing them overwrites the first slots only. -/
theorem powerFailureLogRowStoresItsEntries : Obligations.PowerFailureLogRowStoresItsEntries := by
  intro s pre cs lead groups es tail hpre hcs hne hlead hends hskip hgroups hes ht hlen
  have hx := xPflog_text s.cfg.npf hpre hcs hne hlead hends hgroups hes ht hlen
  have hk : ((logEntries es tail).take (min (dec cs) s.cfg.npf)).length = min es.length (min (dec cs) s.cfg.npf) := by
    rw [List.length_take, length_logEntries, Nat.min_comm]
  refine ⟨_, (logEntries es tail).take (min (dec cs) s.cfg.npf) ++
    s.record.pflog.drop (min es.length (min (dec cs) s.cfg.npf)), rfl, ?exec, fun i e hi he => ?stored, fun i hi => ?kept⟩
  case exec =>
    simp only [List.append_assoc, List.cons_append]
    rw [exec_t13Pflog, ← hskip, hx, commit_some, Record.storeLog, hk]
  case stored =>
    rw [List.getElem?_append_left (by omega), List.getElem?_take_of_lt (by omega)]
    exact getElem?_logEntries tail he
  case kept =>
    rw [List.getElem?_append_right (by omega), List.getElem?_drop, hk, Nat.add_sub_cancel' hi]

/-- Settles O34: without a count or without its groups the row extracts nothing. -/
theorem powerFailureLogRowSkipsWithoutItsGroups : Obligations.PowerFailureLogRowSkipsWithoutItsGroups := by
  intro s pre p hpre h
  suffices hx : xPflog s.cfg.pflogSkip s.cfg.npf (pre ++ openParen :: p) = none by
    rw [exec_t13Pflog, hx, commit_none]
  rw [xPflog, after_append p hpre]
  obtain h | h := h
  · exact if_pos (digits_of_runEnds h)
  · simp only [skipGroups_of_count_lt h, Option.map_none, ite_self]

end Sys2Proof.Machine
end

section
/-! PROOFS. PARSE as a fold (42_parser.md R170 to R196): the record it leaves is the defaults with the stores of the
frame's lines applied in order, and each register keeps the last store into it. -/

namespace Sys2Proof.Machine

/-! ## The walk as a fold of stores -/

/-- The record after the stores of these lines, in order. -/
def applyLines (c : Config) (is : List Instr) (r : Record) : Record :=
  (is.filterMap (stores c)).foldl (fun r w => w.apply r) r

theorem applyLines_nil (c : Config) (r : Record) : applyLines c [] r = r := rfl

theorem applyLines_cons (c : Config) (i : Instr) (is : List Instr) (r : Record) :
    applyLines c (i :: is) r = applyLines c is (applyLine c i r) := by
  cases h : stores c i with
  | none => rw [applyLine_of_none r h, applyLines, applyLines, List.filterMap_cons_none h]
  | some w => rw [applyLine_of_some r h, applyLines, applyLines, List.filterMap_cons_some h, List.foldl_cons]

/-- What is kept by every store is kept by a fold of stores. -/
theorem foldl_apply_induction {P : Record → Prop} (hP : ∀ w r, P r → P (Store.apply w r)) (ws : List Store) {r : Record}
    (hr : P r) : P (ws.foldl (fun r w => w.apply r) r) := by
  induction ws generalizing r with
  | nil => exact hr
  | cons w ws ih => exact ih (hP w r hr)

/-- The instructions of a frame are lines. -/
theorem frameProgram_isLine {table : List TagRow} {frame : List Byte} {i : Instr} (h : i ∈ frameProgram table frame) :
    i.port = .line ∨ i.port = .line0 := by
  unfold frameProgram at h
  split at h
  · cases h
  · obtain rfl | h := List.mem_cons.mp h
    · exact .inr rfl
    · obtain ⟨line, -, rfl⟩ := List.mem_map.mp h
      exact .inl (decodeLine_isLine table line)

/-- A walk over lines completes, and its whole effect is their stores. -/
theorem walk_eq {is : List Instr} (h : ∀ i ∈ is, i.port = .line ∨ i.port = .line0) (s : State) :
    walk is s = .next (s.withRecord (applyLines s.cfg is s.record)) := by
  induction is generalizing s with
  | nil => rfl
  | cons i is ih =>
    have hi := h i List.mem_cons_self
    rw [walk, runLine_eq_exec hi, exec_line hi, andThen_next, ih fun j hj => h j (List.mem_cons_of_mem i hj),
      applyLines_cons]
    rfl

/-! ## What PARSE answers -/

/-- The record as PARSE has it before the first line: defaults, and the sub-device count (R171, R175). -/
def initialRecord (s : State) : Record := (defaultRecord s.cfg).withDevN (deviceCount s.cfg.nsub (bodyOf s.frame))

/-- The record as PARSE has it after the last line. -/
def parsedRecord (s : State) : Record :=
  applyLines s.cfg (frameProgram s.cfg.tagtab s.frame) (initialRecord s)

theorem walk_frameProgram (s : State) :
    walk (frameProgram s.cfg.tagtab s.frame) (beginParse s.frame s) = .next (s.withRecord (parsedRecord s)) :=
  walk_eq (fun _ => frameProgram_isLine) (beginParse s.frame s)

/-- PARSE of a Ready frame: the lines' stores, step 5 on the frame's own trailer, and the clear. -/
theorem exec_parse_eq {s : State} (hst : s.st = .ready) (hlen : s.len ≤ s.cfg.cap) :
    exec .parse s = .next (clearFrame (checkOwnTrailer (s.withRecord (parsedRecord s)))) := by
  calc exec .parse s
    _ = parseFrame s.frame s := by
      change execParse s = _
      rw [execParse, if_pos hst, withFrame_of_le (fun s frame => parseFrame frame s) hlen]
    _ = andThen (endline s.frame (s.withRecord (parsedRecord s))) fun t => .next (clearFrame t) := by
      rw [parseFrame, walk_frameProgram, andThen_next]
    _ = _ := by
      rw [endline, execEndline_of_le (s := s.withRecord (parsedRecord s)) _ _ _ _ _ _ hlen]
      rfl

theorem exec_parse_of_ne {s : State} (h : s.st ≠ .ready) : exec .parse s = .next s := if_neg h

theorem exec_parse_of_cap_lt {s : State} (hst : s.st = .ready) (h : s.cfg.cap < s.len) :
    exec .parse s = .fault (.noSuchAddress s.cfg.cap) :=
  (if_pos hst).trans (if_neg (Nat.not_le.mpr h))

/-- Step 5 answers in the record the three checksum registers only. -/
theorem checkOwnTrailer_record (s : State) :
    ∃ crc tx valid, (checkOwnTrailer s).record = ((s.record.withCrcCalc crc).withCrcTx tx).withCrcValid valid := by
  obtain ⟨tx, -, h⟩ | ⟨-, h⟩ := checkTrailer_cases s.frame (trailerByte s.frame 1) (trailerByte s.frame 2)
    (trailerByte s.frame 3) (trailerByte s.frame 4) s
  all_goals exact ⟨_, _, _, (congrArg State.record h :)⟩

/-- The record that PARSE leaves: the lines' record, but for the three checksum registers. -/
theorem exec_parse_record {s : State} (hst : s.st = .ready) (hlen : s.len ≤ s.cfg.cap) :
    ∃ t crc tx valid, exec .parse s = .next t ∧
      t.record = (((parsedRecord s).withCrcCalc crc).withCrcTx tx).withCrcValid valid := by
  obtain ⟨crc, tx, valid, h⟩ := checkOwnTrailer_record (s.withRecord (parsedRecord s))
  exact ⟨_, crc, tx, valid, exec_parse_eq hst hlen, h⟩

/-- Settles O18. -/
theorem parseIsIgnoredUnlessReady : Obligations.ParseIsIgnoredUnlessReady := fun _ h => exec_parse_of_ne h

/-- Step 5 writes the record, `CRCREG` and `ERR.SIG`, which it never clears. -/
theorem checkTrailer_effect (frame : List Byte) (c1 c2 c3 c4 : Byte) (s : State) :
    ∃ r c sig, checkTrailer frame c1 c2 c3 c4 s = ((s.withCrcReg c).withErr { s.err with sig := sig }).withRecord r ∧
      (s.err.sig = true → sig = true) := by
  obtain ⟨tx, -, h⟩ | ⟨-, h⟩ := checkTrailer_cases frame c1 c2 c3 c4 s
  · exact ⟨_, crc16 (checkedRange frame), s.err.sig, h, id⟩
  · exact ⟨_, _, true, h, fun _ => rfl⟩

/-- Settles O19: what step 5 writes, and the clear. -/
theorem parseAlwaysEndsIdleAndEmpty : Obligations.ParseAlwaysEndsIdleAndEmpty := by
  intro s hst hlen
  obtain ⟨r, c, sig, h, hsig⟩ : ∃ r c sig, checkOwnTrailer (s.withRecord (parsedRecord s)) =
    (((s.withRecord (parsedRecord s)).withCrcReg c).withErr { s.err with sig := sig }).withRecord r ∧
      (s.err.sig = true → sig = true) := checkTrailer_effect ..
  refine ⟨r, c, sig, ?_, hsig⟩
  rw [exec_parse_eq hst hlen, h]
  rfl

/-- Settles O20: neither the frame nor the parsed record depends on the record before. -/
theorem parseForgetsThePreviousRecord : Obligations.ParseForgetsThePreviousRecord := by
  intro s r hst
  by_cases hlen : s.len ≤ s.cfg.cap
  · rw [exec_parse_eq hst hlen, exec_parse_eq (s := s.withRecord r) hst hlen]
    rfl
  · have hcap := Nat.lt_of_not_le hlen
    rw [exec_parse_of_cap_lt hst hcap, exec_parse_of_cap_lt (s := s.withRecord r) hst hcap]
    rfl

theorem exec_endline (c1 c2 c3 c4 t1 t2 : Byte) {s : State} (h : s.len ≤ s.cfg.cap) :
    exec (.endline c1 c2 c3 c4 t1 t2) s = .next (checkTrailer s.frame c1 c2 c3 c4 s) :=
  execEndline_of_le c1 c2 c3 c4 t1 t2 h

/-- Settles O42: the checksum covers the body and its end marker, and the two outcomes are those of step 5. -/
theorem endlineChecksTheFrame : Obligations.EndlineChecksTheFrame := by
  intro s c1 c2 c3 c4 t1 t2 body trailer hlen hframe hbody
  have hrange : checkedRange s.frame = body ++ [endMarker] := by rw [hframe, checkedRange_append trailer hbody]
  have hcases := checkTrailer_cases s.frame c1 c2 c3 c4 s
  rw [hrange] at hcases
  refine ⟨_, exec_endline c1 c2 c3 c4 t1 t2 hlen, ?_⟩
  obtain ⟨tx, hhex, h⟩ | ⟨hhex, h⟩ := hcases <;> rw [h, hhex]
  · refine ⟨fun tx' htx => ?_, nofun⟩
    obtain rfl := Option.some.inj htx
    rfl
  · exact ⟨nofun, fun _ => rfl⟩

/-! ## The last store into a register -/

theorem lastStored_cons {α : Type} (pick : Store → Option α) (default : α) (w : Store) (ws : List Store) :
    lastStored pick default (w :: ws) = lastStored pick ((pick w).getD default) ws := by
  cases h : pick w with
  | none => simp [lastStored, h]
  | some a => simp [lastStored, h, List.getLast?_cons]

/-- A register that each store either sets or leaves holds the last value stored into it, or its first value. -/
theorem foldl_apply_eq_lastStored {α : Type} {get : Record → α} {pick : Store → Option α} {P : Record → Prop}
    (hP : ∀ w r, P r → P (Store.apply w r)) (hget : ∀ w r, P r → get (Store.apply w r) = (pick w).getD (get r))
    (ws : List Store) {r : Record} (hr : P r) :
    get (ws.foldl (fun r w => w.apply r) r) = lastStored pick (get r) ws := by
  induction ws generalizing r with
  | nil => rfl
  | cons w ws ih => rw [List.foldl_cons, ih (hP w r hr), hget w r hr, lastStored_cons]

/-- The text stored into `REC.HDR`. -/
def Store.hdr? : Store → Option (List Byte)
  | .hdr t => some t
  | _ => none

theorem Store.apply_devN (w : Store) (r : Record) : (w.apply r).devN = r.devN := by
  cases w <;> simp [Store.apply, Record.storeLog, Record.modifyDev]

theorem Store.apply_hdr (w : Store) (r : Record) : (w.apply r).hdr = w.hdr?.getD r.hdr := by
  cases w <;> simp [Store.apply, Store.hdr?, Record.storeLog, Record.modifyDev]

theorem Store.apply_ts (w : Store) (r : Record) : (w.apply r).ts = w.ts?.getD r.ts := by
  cases w <;> simp [Store.apply, Store.ts?, Record.storeLog, Record.modifyDev]

theorem Store.apply_equipId (w : Store) (r : Record) : (w.apply r).equipId = w.equipId?.getD r.equipId := by
  cases w <;> simp [Store.apply, Store.equipId?, Record.storeLog, Record.modifyDev]

theorem Store.apply_msg (w : Store) (r : Record) : (w.apply r).msg = w.msg?.getD r.msg := by
  cases w <;> simp [Store.apply, Store.msg?, Record.storeLog, Record.modifyDev]

theorem Store.apply_pflogN (w : Store) (r : Record) : (w.apply r).pflogN = w.count?.getD r.pflogN := by
  cases w <;> simp [Store.apply, Store.count?, Record.storeLog, Record.modifyDev]

theorem Store.apply_getNum (w : Store) (r : Record) (d : NumDest) :
    (w.apply r).getNum d = (w.num? d).getD (r.getNum d) := by
  cases w with
  | num d' v =>
    by_cases h : d' = d
    · simp [Store.apply, Store.num?, h]
    · simp [Store.apply, Store.num?, h, r.getNum_setNum_other v (Ne.symm h)]
  | _ => simp [Store.apply, Store.num?, Record.storeLog, Record.modifyDev]

theorem Store.apply_pflog (w : Store) (r : Record) (i : Nat) (d : LogEntry) :
    (w.apply r).pflog.getD i d = (w.entry? i).getD (r.pflog.getD i d) := by
  cases w with
  | log es =>
    change (es ++ r.pflog.drop es.length).getD i d = es[i]?.getD (r.pflog.getD i d)
    obtain hi | hi := Nat.lt_or_ge i es.length
    · simp [List.getElem?_append_left hi, hi]
    · simp [List.getElem?_append_right hi, hi]
  | _ => simp [Store.apply, Store.entry?, Record.modifyDev]

theorem Store.length_pflog_le (w : Store) (r : Record) : r.pflog.length ≤ (w.apply r).pflog.length := by
  cases w with
  | log es => simp only [Store.apply, Record.storeLog, Record.withPflogN_pflog, Record.withPflog_pflog,
      List.length_append, List.length_drop]; omega
  | _ => simp [Store.apply, Record.modifyDev]

theorem Store.length_dev (w : Store) (r : Record) : (w.apply r).dev.length = r.dev.length := by
  cases w <;> simp [Store.apply, Record.storeLog, Record.modifyDev]

theorem getD_modify {dev : List Device} {k : Nat} (hk : k < dev.length) (k' : Nat) (f : Device → Device) (d : Device) :
    (dev.modify k' f).getD k d = if k' = k then f (dev.getD k d) else dev.getD k d := by
  by_cases h : k' = k <;> simp [h, hk]

section
variable {r : Record} {k : Nat} (hk : k < r.dev.length) (w : Store)
include hk

theorem Store.apply_devTypeCode : ((w.apply r).dev.getD k defaultDevice).typeCode =
    (w.devTypeCode? k).getD (r.dev.getD k defaultDevice).typeCode := by
  cases w with
  | devTypeCode | devEquipId | devReading =>
    simp only [Store.apply, Record.modifyDev, Record.withDev_dev, getD_modify hk, Store.devTypeCode?]
    split_ifs <;> rfl
  | _ => simp [Store.apply, Store.devTypeCode?, Record.storeLog]

theorem Store.apply_devEquipId : ((w.apply r).dev.getD k defaultDevice).equipId =
    (w.devEquipId? k).getD (r.dev.getD k defaultDevice).equipId := by
  cases w with
  | devTypeCode | devEquipId | devReading =>
    simp only [Store.apply, Record.modifyDev, Record.withDev_dev, getD_modify hk, Store.devEquipId?]
    split_ifs <;> rfl
  | _ => simp [Store.apply, Store.devEquipId?, Record.storeLog]

end

/-- The three registers of a reading. -/
def Device.reading (d : Device) : List Byte × Word32 × List Byte := (d.rdTs, d.rdVal, d.rdUnit)

theorem Store.apply_devReading {r : Record} {k : Nat} (hk : k < r.dev.length) (w : Store) :
    ((w.apply r).dev.getD k defaultDevice).reading =
      (w.devReading? k).getD (r.dev.getD k defaultDevice).reading := by
  cases w with
  | devTypeCode | devEquipId | devReading =>
    simp only [Store.apply, Record.modifyDev, Record.withDev_dev, getD_modify hk, Store.devReading?]
    split_ifs <;> rfl
  | _ => simp [Store.apply, Store.devReading?, Record.storeLog]

end Sys2Proof.Machine
end

section
/-! PROOFS. The registers after PARSE (42_parser.md R174, R175, R188, 10_state.md R47, R48): the header text, the
sub-device count, and the last store of every register of the tag rows. -/

namespace Sys2Proof.Machine

/-! ## The sub-device count -/

theorem parsedRecord_devN (s : State) : (parsedRecord s).devN = deviceCount s.cfg.nsub (bodyOf s.frame) :=
  foldl_apply_induction (P := fun r => r.devN = deviceCount s.cfg.nsub (bodyOf s.frame))
    (fun w r h => (w.apply_devN r).trans h) _ rfl

theorem deviceCount_of_not_mem (n : Nat) {body : List Byte} (h : hyphen ∉ body) : deviceCount n body = 0 := by
  rw [deviceCount, afterLast_eq_none h]

theorem deviceCount_text (n : Nat) (pre : List Byte) {ds post : List Byte} (hd : hyphen ∉ ds) (hp : hyphen ∉ post)
    (hds : AllDigits ds) (hends : RunEnds post) :
    deviceCount n (pre ++ hyphen :: ds ++ post) = min (dec ds) n := by
  rw [List.append_assoc, List.cons_append, deviceCount, afterLast_append (List.not_mem_append hd hp)]
  simp only [digits_append hds hends]

/-- Settles O23: no line writes the count that PARSE starts with. -/
theorem parseCountsTheSubDevices : Obligations.ParseCountsTheSubDevices := by
  intro s hs hst
  obtain ⟨t, crc, tx, valid, hexec, hrec⟩ := exec_parse_record hst hs.assembler.bounded
  refine ⟨t, hexec, fun body trailer hframe hbody => ?_⟩
  have hcount : t.record.devN = deviceCount s.cfg.nsub body := by
    have hparsed : t.record.devN = (parsedRecord s).devN := by simp [hrec]
    rw [hparsed, parsedRecord_devN, hframe, bodyOf_append trailer hbody]
  rw [hcount]
  refine ⟨deviceCount_of_not_mem _, ?_⟩
  rintro pre ds post rfl hd hp hds hends
  exact deviceCount_text _ pre hd hp hds hends

/-! ## The header text -/

theorem before_append_of_not_mem {c : Byte} {pre : List Byte} (rest : List Byte) (h : c ∉ pre) :
    before c (pre ++ rest) = pre ++ before c rest := by
  rw [before, List.takeWhile_append_of_pos]
  · rfl
  · intro b hb
    rw [bne_iff_ne]
    rintro rfl
    exact h hb

/-- No row stores the header text. -/
theorem stores_decodeLine_hdr {c : Config} {table : List TagRow} {line : List Byte} {w : Store}
    (h : stores c (decodeLine table line) = some w) : w.hdr? = none := by
  unfold decodeLine at h
  split at h
  · rename_i a g _
    cases a with
    | num d r =>
      obtain ⟨v, -, rfl⟩ := Option.map_eq_some_iff.mp ((stores_toInstr c d r g).symm.trans h)
      rfl
    | ts | equipId | msg | pflog => obtain ⟨v, -, rfl⟩ := Option.map_eq_some_iff.mp h; rfl
    | devTypeCode | devEquipId | devReading =>
      obtain ⟨k, -, h⟩ := Option.bind_eq_some_iff.mp h
      obtain ⟨v, -, rfl⟩ := Option.map_eq_some_iff.mp h
      rfl
  · cases h

/-- The header text after the lines is that of line 0. -/
theorem parsedRecord_hdr {s : State} (h : s.frame ≠ []) :
    (parsedRecord s).hdr = headerText s.cfg.hdrMax ((before lineFeed s.frame).drop 1) := by
  have hfold := foldl_apply_eq_lastStored (P := fun _ => True) (fun _ _ _ => trivial) (fun w r _ => w.apply_hdr r)
    ((frameProgram s.cfg.tagtab s.frame).filterMap (stores s.cfg)) (r := initialRecord s) trivial
  have hrows : (((splitLines ((upFrom lineFeed s.frame).drop 1)).map (decodeLine s.cfg.tagtab)).filterMap
      (stores s.cfg)).filterMap Store.hdr? = [] := by
    rw [List.filterMap_eq_nil_iff]
    intro w hw
    obtain ⟨i, hi, hstore⟩ := List.mem_filterMap.mp hw
    obtain ⟨line, -, rfl⟩ := List.mem_map.mp hi
    exact stores_decodeLine_hdr hstore
  rw [parsedRecord, applyLines, hfold, frameProgram, splitLines_eq_cons h]
  simp only [lastStored, List.filterMap_cons, stores, Store.hdr?, hrows]
  rfl

/-- Settles O22: line 0 ends at the line separator, or holds the end marker, where the header text ends. -/
theorem parseStoresTheHeaderText : Obligations.ParseStoresTheHeaderText := by
  intro s hs hst
  obtain ⟨t, crc, tx, valid, hexec, hrec⟩ := exec_parse_record hst hs.assembler.bounded
  refine ⟨t, hexec, fun text stop rest hlf hend hstop => ?_⟩
  have hstops : before lineFeed (stop :: rest) = [] ∨ ∃ u, before lineFeed (stop :: rest) = endMarker :: u := by
    obtain rfl | rfl := hstop
    · exact .inl rfl
    · exact .inr ⟨before lineFeed rest, rfl⟩
  have hhdr {line : List Byte} (hframe : s.frame = startMarker :: line ++ stop :: rest) (hline : lineFeed ∉ line) :
      t.record.hdr = headerText s.cfg.hdrMax (line ++ before lineFeed (stop :: rest)) := by
    have hparsed : t.record.hdr = (parsedRecord s).hdr := by simp [hrec]
    have hstart : lineFeed ∉ startMarker :: line := List.not_mem_cons_of_ne_of_not_mem (by decide) hline
    rw [hparsed, parsedRecord_hdr (by simp [hframe]), hframe, before_append_of_not_mem _ hstart, List.cons_append,
      List.drop_one, List.tail_cons]
  constructor
  · intro hframe
    have hline : lineFeed ∉ text ++ [carriageReturn] := List.not_mem_append hlf (by decide)
    rw [hhdr (line := text ++ [carriageReturn]) (by simp [hframe]) hline, List.append_assoc]
    exact headerText_return _ hend hstops
  · intro hlast hframe
    rw [hhdr hframe hlf, headerText_plain _ hend hstops hlast]

/-! ## The registers of the tag rows -/

/-- The last store of slot `i` of the log, with at most one log line, is its default at and above `PFLOG_N` (R48). -/
theorem lastStored_entry_of_one_log {ws : List Store} {i : Nat} (h : (ws.filterMap Store.count?).length ≤ 1)
    (hi : lastStored Store.count? 0 ws ≤ i) (d : LogEntry) : lastStored (Store.entry? i) d ws = d := by
  suffices hnone : ws.filterMap (Store.entry? i) = [] by rw [lastStored, hnone]; rfl
  rw [List.filterMap_eq_nil_iff]
  intro w hw
  cases w with
  | log es =>
    have hmem : es.length ∈ ws.filterMap Store.count? := List.mem_filterMap.mpr ⟨.log es, hw, rfl⟩
    obtain ⟨n, hn⟩ := List.length_eq_one_iff.mp (Nat.le_antisymm h (List.length_pos_of_mem hmem))
    rw [hn, List.mem_singleton] at hmem
    rw [lastStored, hn, ← hmem] at hi
    exact List.getElem?_eq_none hi
  | _ => rfl

/-- The lengths of the two arrays during the walk: every slot of the configuration exists. -/
def ArraysFit (c : Config) (r : Record) : Prop := c.npf ≤ r.pflog.length ∧ r.dev.length = c.nsub

theorem ArraysFit.apply {c : Config} {r : Record} (w : Store) (h : ArraysFit c r) : ArraysFit c (w.apply r) :=
  ⟨h.1.trans (w.length_pflog_le r), (w.length_dev r).trans h.2⟩

theorem arraysFit_initialRecord (s : State) : ArraysFit s.cfg (initialRecord s) := by
  simp [ArraysFit, initialRecord, defaultRecord]

theorem arraysFit_parsedRecord (s : State) : ArraysFit s.cfg (parsedRecord s) :=
  foldl_apply_induction (fun w _ h => ArraysFit.apply w h) _ (arraysFit_initialRecord s)

/-- A register of the parsed record: the last store, or its initial value. -/
theorem get_parsedRecord {α : Type} (s : State) {get : Record → α} {pick : Store → Option α}
    (hget : ∀ w r, ArraysFit s.cfg r → get (Store.apply w r) = (pick w).getD (get r)) :
    get (parsedRecord s) = lastStored pick (get (initialRecord s))
      ((frameProgram s.cfg.tagtab s.frame).filterMap (stores s.cfg)) :=
  foldl_apply_eq_lastStored (fun w _ h => ArraysFit.apply w h) hget _ (arraysFit_initialRecord s)

theorem initialRecord_getNum (s : State) (d : NumDest) : (initialRecord s).getNum d = 0#32 := by
  rw [initialRecord, Record.withDevN_getNum, defaultRecord_getNum]

theorem initialRecord_pflog (s : State) (i : Nat) : (initialRecord s).pflog.getD i defaultEntry = defaultEntry := by
  simp only [initialRecord, Record.withDevN_pflog, defaultRecord, List.getD_eq_getElem?_getD, List.getElem?_replicate]
  split <;> rfl

theorem initialRecord_dev (s : State) (k : Nat) : (initialRecord s).dev.getD k defaultDevice = defaultDevice := by
  simp only [initialRecord, Record.withDevN_dev, defaultRecord, List.getD_eq_getElem?_getD, List.getElem?_replicate]
  split <;> rfl

theorem parsedRecord_pflog {s : State} {i : Nat} (hi : i < s.cfg.npf) :
    (parsedRecord s).pflog[i]? = some (lastStored (Store.entry? i) defaultEntry
      ((frameProgram s.cfg.tagtab s.frame).filterMap (stores s.cfg))) := by
  have hget := get_parsedRecord s (get := fun r => r.pflog.getD i defaultEntry) (pick := Store.entry? i)
    fun w r _ => w.apply_pflog r i defaultEntry
  have hlen : i < (parsedRecord s).pflog.length := Nat.lt_of_lt_of_le hi (arraysFit_parsedRecord s).1
  rw [initialRecord_pflog] at hget
  rw [← hget, List.getElem?_eq_getElem hlen, List.getD_eq_getElem _ _ hlen]

theorem parsedRecord_dev {s : State} {k : Nat} (hk : k < s.cfg.nsub) :
    ∃ e, (parsedRecord s).dev[k]? = some e ∧
      e.typeCode = lastStored (Store.devTypeCode? k) 0#32
        ((frameProgram s.cfg.tagtab s.frame).filterMap (stores s.cfg)) ∧
      e.equipId = lastStored (Store.devEquipId? k) []
        ((frameProgram s.cfg.tagtab s.frame).filterMap (stores s.cfg)) ∧
      e.reading = lastStored (Store.devReading? k) (defaultStamp, 0#32, [])
        ((frameProgram s.cfg.tagtab s.frame).filterMap (stores s.cfg)) := by
  have hlt {r : Record} (h : ArraysFit s.cfg r) : k < r.dev.length := by rw [h.2]; exact hk
  have hlen := hlt (arraysFit_parsedRecord s)
  have hcode := get_parsedRecord s (get := fun r => (r.dev.getD k defaultDevice).typeCode)
    fun w r h => w.apply_devTypeCode (hlt h)
  have hid := get_parsedRecord s (get := fun r => (r.dev.getD k defaultDevice).equipId)
    fun w r h => w.apply_devEquipId (hlt h)
  have hreading := get_parsedRecord s (get := fun r => (r.dev.getD k defaultDevice).reading)
    fun w r h => w.apply_devReading (hlt h)
  rw [initialRecord_dev] at hcode hid hreading
  refine ⟨_, ?_, hcode, hid, hreading⟩
  rw [List.getElem?_eq_getElem hlen, List.getD_eq_getElem _ _ hlen]

/-- Settles O24: each register by the rule for the last store into it, and the log's slots above `PFLOG_N`. -/
theorem parseKeepsTheLastNumberOfEachField : Obligations.ParseKeepsTheLastNumberOfEachField := by
  intro s hst hlen
  obtain ⟨t, crc, tx, valid, hexec, hrec⟩ := exec_parse_record hst hlen
  refine ⟨t, hexec, ?_⟩
  rintro ws rfl
  have hnum (d : NumDest) : t.record.getNum d = (parsedRecord s).getNum d := by simp [hrec]
  have hts : t.record.ts = (parsedRecord s).ts := by simp [hrec]
  have hid : t.record.equipId = (parsedRecord s).equipId := by simp [hrec]
  have hmsg : t.record.msg = (parsedRecord s).msg := by simp [hrec]
  have hcount : t.record.pflogN = (parsedRecord s).pflogN := by simp [hrec]
  have hlog : t.record.pflog = (parsedRecord s).pflog := by simp [hrec]
  have hdev : t.record.dev = (parsedRecord s).dev := by simp [hrec]
  have hlast := get_parsedRecord s fun w r _ => w.apply_pflogN r
  rw [hts, hid, hmsg, hcount, hlog, hdev]
  refine ⟨fun d => ?num, get_parsedRecord s fun w r _ => w.apply_ts r, get_parsedRecord s fun w r _ => w.apply_equipId r,
    get_parsedRecord s fun w r _ => w.apply_msg r, hlast, fun i hi => parsedRecord_pflog hi,
    fun k hk => parsedRecord_dev hk, fun hone i hn hi => ?slot⟩
  case num =>
    have h := get_parsedRecord s (get := fun r => r.getNum d) fun w r _ => w.apply_getNum r d
    rwa [initialRecord_getNum, ← hnum] at h
  case slot =>
    rw [hlast] at hn
    exact (parsedRecord_pflog hi).trans (congrArg some (lastStored_entry_of_one_log hone hn _))

end Sys2Proof.Machine
end

section
/-! PROOFS. POLL as a loop (41_assembler.md R150 to R158): what every received byte keeps, what the loop keeps, and how
a stream may be cut. -/

namespace Sys2Proof.Machine

/-! ## ARM, ABORT and the cases of RX -/

/-- The state after ARM (R150). -/
def armed (s : State) : State := if s.cfg.fcEn = true ∧ s.st ≠ .ready then s.withRts .high else s

theorem armed_withQ (s : State) (q : List Byte) : armed (s.withQ q) = (armed s).withQ q :=
  (apply_ite (State.withQ · q) (s.cfg.fcEn = true ∧ s.st ≠ .ready) (s.withRts .high) s).symm

theorem exec_arm (s : State) : exec .arm s = .next (armed s) := rfl

theorem exec_poll (s : State) : exec .poll s = pollLoop s.q (armed s) := rfl

theorem armed_of_ready {s : State} (h : s.st = .ready) : armed s = s := if_neg fun hc => hc.2 h

theorem armed_cases (s : State) : armed s = s ∨ s.cfg.fcEn = true ∧ s.st ≠ .ready ∧ armed s = s.withRts .high := by
  unfold armed
  split
  case isTrue h => exact .inr ⟨h.1, h.2, rfl⟩
  case isFalse => exact .inl rfl

theorem exec_abort (s : State) : exec .abort s = .next (if s.st = .assembling then raise .abort s else s) := rfl

/-- Settles O3: the arm of ARM, read off. -/
theorem armAssertsFlowControlOutsideReady : Obligations.ArmAssertsFlowControlOutsideReady := exec_arm

/-- Settles O11: the arm of ABORT, with the event's state change. -/
theorem abortDropsThePartialFrame : Obligations.AbortDropsThePartialFrame := exec_abort

theorem exec_rxIdleOther_refused {b : Byte} {s : State} (h : ¬(s.st = .idle ∧ b ≠ startMarker)) :
    exec (.rxIdleOther b) s = .refused .rxCaseNotEnabled := if_neg h

theorem exec_rxIdleStart_refused {s : State} (h : s.st ≠ .idle) :
    exec .rxIdleStart s = .refused .rxCaseNotEnabled := if_neg h

theorem exec_rxAppend_refused {b : Byte} {s : State} (h : ¬(s.st = .assembling ∧ s.len < s.cfg.cap)) :
    exec (.rxAppend b) s = .refused .rxCaseNotEnabled := if_neg h

theorem exec_rxOverflow_refused {b : Byte} {s : State} (h : ¬(s.st = .assembling ∧ s.cfg.cap ≤ s.len)) :
    exec (.rxOverflow b) s = .refused .rxCaseNotEnabled := if_neg h

theorem exec_rxOverflow {b : Byte} {s : State} (hs : s.st = .assembling) (hl : s.cfg.cap ≤ s.len) :
    exec (.rxOverflow b) s =
      if b = startMarker then startFrame (raise .framingOvf s) else .next (raise .framingOvf s) := if_pos ⟨hs, hl⟩

/-- Settles O7: outside its condition a case is refused, and in Ready ARM and the loop leave everything. -/
theorem rxCasesAreEnabledOnlyUnderTheirConditions : Obligations.RxCasesAreEnabledOnlyUnderTheirConditions := by
  intro s b
  refine ⟨exec_rxIdleOther_refused, exec_rxIdleStart_refused, exec_rxAppend_refused, exec_rxOverflow_refused,
    fun hs => ?_⟩
  rw [exec_poll, armed_of_ready hs, pollLoop_ready _ hs, State.withQ_self]

/-- Settles O6: the framing error, and then the Idle rules for the byte. -/
theorem overflowDiscardsTheFrame : Obligations.OverflowDiscardsTheFrame := by
  intro s b hs hlen hcap
  have hexec := exec_rxOverflow (b := b) hs (Nat.le_of_eq hlen.symm)
  refine ⟨fun hb => hexec.trans (if_neg hb), fun hb => ⟨s.buf.write 0 startMarker, ?_, ?_, fun a ha => ?_⟩⟩
  · exact (hexec.trans (if_pos hb)).trans (startFrame_eq_next.mpr ⟨hcap, rfl⟩)
  · exact Memory.read_write_zero _ (by decide)
  · exact Memory.read_write_of_ne _ _ ha

/-! ## What every received byte keeps -/

/-- The second state differs from the first in the assembler's registers only: no byte at `CAP` or above has changed,
and `ERR.OVF` is not cleared. -/
def AssemblerOnly (s t : State) : Prop :=
  ∃ m n st rts ovf, t = ((((s.withBuf m).withLen n).withSt st).withRts rts).withErr { s.err with ovf := ovf } ∧
    (s.err.ovf = true → ovf = true) ∧ ∀ a, s.cfg.cap ≤ a → m.read a = s.buf.read a

theorem AssemblerOnly.refl (s : State) : AssemblerOnly s s :=
  ⟨s.buf, s.len, s.st, s.rts, s.err.ovf, rfl, id, fun _ _ => rfl⟩

theorem AssemblerOnly.trans {s t u : State} (h : AssemblerOnly s t) (h' : AssemblerOnly t u) : AssemblerOnly s u := by
  obtain ⟨m, n, st, rts, ovf, rfl, hovf, hmem⟩ := h
  obtain ⟨m', n', st', rts', ovf', rfl, hovf', hmem'⟩ := h'
  exact ⟨m', n', st', rts', ovf', rfl, fun h => hovf' (hovf h), fun a ha => (hmem' a ha).trans (hmem a ha)⟩

theorem AssemblerOnly.withRts (s : State) (v : Rts) : AssemblerOnly s (s.withRts v) :=
  ⟨s.buf, s.len, s.st, v, s.err.ovf, rfl, id, fun _ _ => rfl⟩

theorem AssemblerOnly.armed (s : State) : AssemblerOnly s (armed s) := by
  obtain h | ⟨-, -, h⟩ := armed_cases s <;> rw [h]
  · exact .refl s
  · exact .withRts s .high

theorem AssemblerOnly.stored {s : State} {a : Nat} (b : Byte) (ha : a < s.cfg.cap) (st : AsmState) :
    AssemblerOnly s ((stored a b s).withSt st) :=
  ⟨s.buf.write a b, a + 1, st, s.rts, s.err.ovf, rfl, id, fun _ hc => Memory.read_write_of_ne _ _ (by omega)⟩

theorem AssemblerOnly.framingOvf (s : State) : AssemblerOnly s (raise .framingOvf s) :=
  ⟨s.buf, 0, .idle, s.rts, true, rfl, fun _ => rfl, fun _ _ => rfl⟩

theorem AssemblerOnly.becomeReady (s : State) : AssemblerOnly s (becomeReady s) := by
  rw [becomeReady_eq]
  exact ⟨s.buf, s.len, .ready, if s.cfg.fcEn = true then .hiZ else s.rts, s.err.ovf, rfl, id, fun _ _ => rfl⟩

theorem receive_assemblerOnly {b : Byte} {s t : State} (h : receive b s = .next t) : AssemblerOnly s t := by
  obtain ⟨-, -, rfl⟩ | ⟨-, -, hc, rfl⟩ | ⟨hs, hl, -, rfl⟩ | ⟨hs, hl, -, rfl⟩ | ⟨-, -, -, rfl⟩ | ⟨-, -, -, hc, rfl⟩ :=
    receive_cases h
  · exact .refl _
  · exact .stored _ hc _
  · exact .stored b hl s.st
  · exact (AssemblerOnly.stored b hl s.st).trans (.becomeReady _)
  · exact .framingOvf s
  · exact (AssemblerOnly.framingOvf s).trans (.stored (s := raise .framingOvf s) _ hc _)

/-! ## What the loop keeps -/

/-- What every received byte keeps holds when the loop ends, which it does in Ready or with every byte read. -/
theorem pollLoop_induction {P : State → Prop} (hP : ∀ b s t, P s → receive b s = .next t → P t) {q : List Byte}
    {s t : State} (hs : P s) (h : pollLoop q s = .next t) :
    ∃ u rest, P u ∧ t = u.withQ rest ∧ rest <:+ q ∧ (u.st = .ready ∨ rest = []) := by
  induction q generalizing s with
  | nil =>
    cases h
    exact ⟨s, [], hs, rfl, List.suffix_rfl, .inr rfl⟩
  | cons b q ih =>
    by_cases hr : s.st = .ready
    · rw [pollLoop_ready _ hr] at h
      cases h
      exact ⟨s, b :: q, hs, rfl, List.suffix_rfl, .inl hr⟩
    · rw [pollLoop_cons b q hr, andThen_eq_next] at h
      obtain ⟨v, hv, h⟩ := h
      obtain ⟨u, rest, hu, ht, hsuffix, hend⟩ := ih (hP b s v hs hv) h
      exact ⟨u, rest, hu, ht, hsuffix.trans (List.suffix_cons b q), hend⟩

/-- The loop completes where the buffer has a byte. -/
theorem pollLoop_next {q : List Byte} {s : State} (hc : 0 < s.cfg.cap) : ∃ t, pollLoop q s = .next t := by
  induction q generalizing s with
  | nil => exact ⟨_, rfl⟩
  | cons b q ih =>
    by_cases hr : s.st = .ready
    · exact ⟨_, pollLoop_ready _ hr⟩
    · obtain ⟨u, hu⟩ := receive_next b hr hc
      have hcap : u.cfg = s.cfg := by
        obtain ⟨_, _, _, _, _, rfl, -⟩ := receive_assemblerOnly hu
        rfl
      obtain ⟨t, ht⟩ := ih (s := u) (by rwa [hcap])
      exact ⟨t, by rw [pollLoop_cons b q hr, hu, andThen_next, ht]⟩

/-- POLL changes the assembler's registers and the byte source only. -/
theorem exec_poll_effect {s t : State} (h : exec .poll s = .next t) :
    ∃ u rest, AssemblerOnly s u ∧ t = u.withQ rest ∧ rest <:+ s.q ∧ (u.st = .ready ∨ rest = []) :=
  pollLoop_induction (P := AssemblerOnly s) (fun _ _ _ hu hv => hu.trans (receive_assemblerOnly hv))
    (AssemblerOnly.armed s) h

theorem exec_poll_next {s : State} (hc : 0 < s.cfg.cap) : ∃ t, exec .poll s = .next t := by
  rw [exec_poll]
  obtain h | ⟨-, -, h⟩ := armed_cases s <;> rw [h] <;> exact pollLoop_next hc

theorem Sound.cap_pos {s : State} (h : Sound s) : 0 < s.cfg.cap := by
  have hcfg := h.cfg
  simp only [Config.wf, Bool.and_eq_true, decide_eq_true_eq] at hcfg
  omega

/-- Settles O8: the loop completes, and ends as every received byte has left the assembler. -/
theorem pollEndsReadyOrDrained : Obligations.PollEndsReadyOrDrained := by
  intro s hs
  obtain ⟨t, ht⟩ := exec_poll_next hs.cap_pos
  obtain ⟨u, rest, ⟨m, n, st, rts, ovf, rfl, hovf, hmem⟩, rfl, hsuffix, hend⟩ := exec_poll_effect ht
  exact ⟨m, n, st, rts, ovf, rest, ht, hsuffix, hend, hovf, hmem⟩

/-! ## Cutting a stream -/

theorem andThen_congr {r : Result} {k l : State → Result} (h : ∀ t, r = .next t → k t = l t) :
    andThen r k = andThen r l := by
  cases r with
  | next t => exact h t rfl
  | _ => rfl

/-- The state with another byte source and another operation in flight, which no received byte looks at. -/
def State.withEnv (s : State) (q : List Byte) (a : Activity) : State := (s.withQ q).withAct a

theorem memWrite_of_le {a : Nat} (b : Byte) {s : State} (h : s.cfg.cap ≤ a) :
    memWrite a b s = .fault (.noSuchAddress a) := if_neg (Nat.not_lt.mpr h)

theorem startFrame_withEnv (q : List Byte) (a : Activity) (s : State) :
    startFrame (s.withEnv q a) = andThen (startFrame s) fun t => .next (t.withEnv q a) := by
  unfold startFrame
  obtain hc | hc := Nat.lt_or_ge 0 s.cfg.cap
  · rw [memWrite_of_lt _ hc, memWrite_of_lt _ (s := s.withEnv q a) hc]
    rfl
  · rw [memWrite_of_le _ hc, memWrite_of_le _ (s := s.withEnv q a) hc]
    rfl

theorem receive_ready {s : State} (b : Byte) (h : s.st = .ready) : receive b s = .refused .rxCaseNotEnabled := by
  simp [receive, h]

theorem receive_overflow {s : State} (b : Byte) (hs : s.st = .assembling) (hl : s.cfg.cap ≤ s.len) :
    receive b s = if b = startMarker then startFrame (raise .framingOvf s) else .next (raise .framingOvf s) := by
  rw [receive_eq_exec, rxInstr, hs]
  exact (congrArg (exec · s) (if_neg (Nat.not_lt.mpr hl))).trans (exec_rxOverflow hs hl)

theorem receive_start {s : State} (hs : s.st = .idle) : receive startMarker s = startFrame s := by
  rw [receive_eq_exec, rxInstr, hs]
  exact if_pos hs

theorem receive_withEnv (b : Byte) (q : List Byte) (a : Activity) (s : State) :
    receive b (s.withEnv q a) = andThen (receive b s) fun t => .next (t.withEnv q a) := by
  cases hs : s.st with
  | idle =>
    by_cases hb : b = startMarker
    · subst hb
      rw [receive_start hs, receive_start (s := s.withEnv q a) hs, startFrame_withEnv]
    · rw [receive_idleOther hs hb, receive_idleOther (s := s.withEnv q a) hs hb, andThen_next]
  | assembling =>
    by_cases hl : s.len < s.cfg.cap
    · rw [receive_append b hs hl, receive_append b (s := s.withEnv q a) hs hl, andThen_next]
      have hsame : completes (stored (s.withEnv q a).len b (s.withEnv q a)) = completes (stored s.len b s) := rfl
      rw [hsame]
      split
      · rw [becomeReady_eq, becomeReady_eq]; rfl
      · rfl
    · have hl' := Nat.le_of_not_lt hl
      rw [receive_overflow b hs hl', receive_overflow b (s := s.withEnv q a) hs hl']
      split
      · exact startFrame_withEnv q a (raise .framingOvf s)
      · rfl
  | ready => rw [receive_ready b hs, receive_ready b (s := s.withEnv q a) hs, andThen_refused]

theorem receive_act {b : Byte} {s t : State} (h : receive b s = .next t) : t.act = s.act := by
  obtain ⟨_, _, _, _, _, rfl, -⟩ := receive_assemblerOnly h
  rfl

theorem receive_withQ (b : Byte) (q : List Byte) (s : State) :
    receive b (s.withQ q) = andThen (receive b s) fun t => .next (t.withQ q) := by
  rw [show s.withQ q = s.withEnv q s.act from rfl, receive_withEnv]
  refine andThen_congr fun t ht => ?_
  rw [← receive_act ht]
  rfl

/-- The loop reads the bytes it is given, whatever the byte source holds. -/
theorem pollLoop_withQ (q x : List Byte) (s : State) : pollLoop q (s.withQ x) = pollLoop q s := by
  induction q generalizing s with
  | nil => rfl
  | cons b q ih =>
    by_cases hr : s.st = .ready
    · rw [pollLoop_ready _ hr, pollLoop_ready _ (s := s.withQ x) hr, State.withQ_withQ]
    · rw [pollLoop_cons b q hr, pollLoop_cons b q (s := s.withQ x) hr, receive_withQ, andThen_assoc]
      exact andThen_congr fun t _ => ih t

/-- The loop over two pieces: what the first leaves unread comes before the second. -/
theorem pollLoop_append (q1 q2 : List Byte) (s : State) :
    pollLoop (q1 ++ q2) s = andThen (pollLoop q1 s) fun t => pollLoop (t.q ++ q2) t := by
  induction q1 generalizing s with
  | nil => exact (pollLoop_withQ q2 [] s).symm
  | cons b q1 ih =>
    by_cases hr : s.st = .ready
    · rw [pollLoop_ready _ hr, pollLoop_ready _ hr, andThen_next, pollLoop_ready _ (s := s.withQ (b :: q1)) hr]
      rfl
    · rw [List.cons_append, pollLoop_cons b _ hr, pollLoop_cons b _ hr, andThen_assoc]
      exact andThen_congr fun t _ => ih t

/-- ARM has nothing more to do: flow control is asserted, or not configured, or the frame is Ready. -/
def IsArmed (s : State) : Prop := s.cfg.fcEn = true → s.st ≠ .ready → s.rts = .high

theorem IsArmed.armed_eq {s : State} (h : IsArmed s) : armed s = s := by
  obtain heq | ⟨hf, hr, heq⟩ := armed_cases s
  · exact heq
  · rw [heq, ← h hf hr, State.withRts_self]

theorem isArmed_armed (s : State) : IsArmed (armed s) := by
  unfold armed
  split
  case isTrue => exact fun _ _ => rfl
  case isFalse h => exact fun hf hr => absurd ⟨hf, hr⟩ h

/-- No received byte lowers `RTS` but the one that makes the frame Ready (R153). -/
theorem IsArmed.receive {b : Byte} {s t : State} (hs : IsArmed s) (h : receive b s = .next t) : IsArmed t := by
  obtain ⟨-, -, rfl⟩ | ⟨hst, -, -, rfl⟩ | ⟨hst, -, -, rfl⟩ | ⟨-, -, -, rfl⟩ | ⟨hst, -, -, rfl⟩ | ⟨hst, -, -, -, rfl⟩ :=
    receive_cases h
  · exact hs
  · exact fun hf _ => hs hf (by simp [hst])
  · exact hs
  · rw [becomeReady_eq]
    exact fun _ hr => absurd rfl hr
  · exact fun hf _ => hs hf (by simp [hst])
  · exact fun hf _ => hs hf (by simp [hst])

/-- Settles O9: the loop splits, and before the second piece ARM has nothing to do. -/
theorem pollsOfTwoPiecesEqualOnePoll : Obligations.PollsOfTwoPiecesEqualOnePoll := by
  intro s q1 q2
  have harmed (q : List Byte) : exec .poll (s.withQ q) = pollLoop q (armed s) := by
    rw [exec_poll, armed_withQ, State.withQ_q, pollLoop_withQ]
  rw [harmed, harmed, pollLoop_append]
  refine andThen_congr fun t ht => ?_
  obtain ⟨u, rest, hu, rfl, -, -⟩ := pollLoop_induction (fun _ _ _ h h' => IsArmed.receive h h') (isArmed_armed s) ht
  have hsecond : IsArmed ((u.withQ rest).withQ (rest ++ q2)) := hu
  rw [exec_poll, State.withQ_q, hsecond.armed_eq, State.withQ_q, State.withQ_withQ, pollLoop_withQ, pollLoop_withQ]

end Sys2Proof.Machine
end

section
/-! PROOFS. Everything an instruction can do, said once, and the whole-machine rules that follow from it (10_state.md R21,
R25, R27, R28, R30, 20_memory.md R84, 41_assembler.md R160). -/

namespace Sys2Proof.Machine

/-! ## What an instruction can do -/

theorem exec_parse_completes {s t : State} (h : exec .parse s = .next t) (hst : s.st = .ready) :
    s.len ≤ s.cfg.cap ∧ t = clearFrame (checkOwnTrailer (s.withRecord (parsedRecord s))) := by
  obtain hlen | hlen := Nat.lt_or_ge s.cfg.cap s.len
  · rw [exec_parse_of_cap_lt hst hlen] at h
    cases h
  · rw [exec_parse_eq hst hlen] at h
    exact ⟨hlen, (Host.Outcome.next.inj h).symm⟩

theorem exec_rst (s : State) : exec .rst s =
    .next (((((s.withSt .idle).withLen 0).withRts .hiZ).withErr ⟨false, false, false⟩).withRecord
      (defaultRecord s.cfg)) := rfl

/-- The next states of an instruction, by the part of the machine that runs it. -/
inductive Effect (s : State) : Instr → State → Prop where
  | line {i : Instr} (hi : i.port = .line ∨ i.port = .line0) :
      Effect s i (s.withRecord (applyLine s.cfg i s.record))
  | endline (c1 c2 c3 c4 t1 t2 : Byte) : Effect s (.endline c1 c2 c3 c4 t1 t2) (checkTrailer s.frame c1 c2 c3 c4 s)
  | poll {t : State} (h : exec .poll s = .next t) : Effect s .poll t
  | parseIgnored (h : s.st ≠ .ready) : Effect s .parse s
  | parse (h : s.st = .ready) : Effect s .parse (clearFrame (checkOwnTrailer (s.withRecord (parsedRecord s))))
  | abort : Effect s .abort (if s.st = .assembling then raise .abort s else s)
  | errclr : Effect s .errclr (s.withErr ⟨false, false, false⟩)
  | rst : Effect s .rst (((((s.withSt .idle).withLen 0).withRts .hiZ).withErr ⟨false, false, false⟩).withRecord
      (defaultRecord s.cfg))
  | read {i : Instr} (hi : i.port = .host) (v : ReadValue) : Effect s i (s.withOut v)
  | arm : Effect s .arm (armed s)
  | receive {b : Byte} {t : State} (h : receive b s = .next t) : Effect s (rxInstr b s) t
  | crc16 (bs : List Byte) : Effect s (.crc16 bs) (s.withCrcReg (crc16 bs))

/-- A case of RX that is not refused is what RX does with some byte. -/
theorem Effect.of_rx {i : Instr} {s t : State} (b : Byte) (hi : i = rxInstr b s) (h : exec i s = .next t) :
    Effect s i t := by
  subst hi
  rw [← receive_eq_exec] at h
  exact .receive h

/-- RD_BUF that is not refused is a read. -/
theorem exec_rdBuf_completes {k : Nat} {s t : State} (h : exec (.rdBuf k) s = .next t) : ∃ v, t = s.withOut v := by
  change execRdBuf k s = _ at h
  unfold execRdBuf at h
  split_ifs at h <;> cases h <;> exact ⟨_, rfl⟩

/-- RD_REC that is not refused is a read. -/
theorem exec_rdRec_completes {f : RecField} {s t : State} (h : exec (.rdRec f) s = .next t) :
    ∃ v, t = s.withOut v := by
  change execRdRec f s = _ at h
  unfold execRdRec at h
  split at h <;> cases h
  exact ⟨_, rfl⟩

/-- Everything an instruction can do. -/
theorem exec_effect {i : Instr} {s t : State} (h : exec i s = .next t) : Effect s i t := by
  by_cases hi : i.port = .line ∨ i.port = .line0
  · rw [exec_line hi] at h
    cases h
    exact .line hi
  cases i with
  | endline c1 c2 c3 c4 t1 t2 =>
    obtain ⟨-, h⟩ := (withFrame_eq_next (k := fun frame => .next (checkTrailer frame c1 c2 c3 c4 s))).mp h
    cases h
    exact .endline ..
  | poll => exact .poll h
  | parse =>
    by_cases hst : s.st = .ready
    · obtain ⟨-, rfl⟩ := exec_parse_completes h hst
      exact .parse hst
    · rw [exec_parse_of_ne hst] at h
      cases h
      exact .parseIgnored hst
  | abort => cases h; exact .abort
  | errclr => cases h; exact .errclr
  | rst => cases h; exact .rst
  | rdStatus | rdErr | rdLen | rdCfg => cases h; exact .read rfl _
  | rdBuf => obtain ⟨v, rfl⟩ := exec_rdBuf_completes h; exact .read rfl v
  | rdRec => obtain ⟨v, rfl⟩ := exec_rdRec_completes h; exact .read rfl v
  | arm => cases h; exact .arm
  | rxIdleOther b =>
    by_cases hc : s.st = .idle ∧ b ≠ startMarker
    · exact .of_rx b (by simp [rxInstr, hc.1, hc.2]) h
    · rw [exec_rxIdleOther_refused hc] at h
      cases h
  | rxIdleStart =>
    by_cases hc : s.st = .idle
    · exact .of_rx startMarker (by simp [rxInstr, hc]) h
    · rw [exec_rxIdleStart_refused hc] at h
      cases h
  | rxAppend b =>
    by_cases hc : s.st = .assembling ∧ s.len < s.cfg.cap
    · exact .of_rx b (by simp [rxInstr, hc.1, hc.2]) h
    · rw [exec_rxAppend_refused hc] at h
      cases h
  | rxOverflow b =>
    by_cases hc : s.st = .assembling ∧ s.cfg.cap ≤ s.len
    · exact .of_rx b (by simp [rxInstr, hc.1, hc.2]) h
    · rw [exec_rxOverflow_refused hc] at h
      cases h
  | crc16 bs => cases h; exact .crc16 bs
  | _ => exact absurd (by simp [Instr.port]) hi

/-! ## Configuration, storage and record -/

theorem checkTrailer_frame (frame : List Byte) (c1 c2 c3 c4 : Byte) (s : State) :
    (checkTrailer frame c1 c2 c3 c4 s).cfg = s.cfg ∧ (checkTrailer frame c1 c2 c3 c4 s).buf = s.buf ∧
      (checkTrailer frame c1 c2 c3 c4 s).len = s.len ∧ (checkTrailer frame c1 c2 c3 c4 s).st = s.st ∧
      (checkTrailer frame c1 c2 c3 c4 s).rts = s.rts := by
  obtain ⟨r, c, sig, h, -⟩ := checkTrailer_effect frame c1 c2 c3 c4 s
  rw [h]
  exact ⟨rfl, rfl, rfl, rfl, rfl⟩

theorem checkOwnTrailer_frame (s : State) :
    (checkOwnTrailer s).cfg = s.cfg ∧ (checkOwnTrailer s).buf = s.buf ∧ (checkOwnTrailer s).len = s.len ∧
      (checkOwnTrailer s).st = s.st ∧ (checkOwnTrailer s).rts = s.rts := checkTrailer_frame ..

/-- No instruction writes the configuration, and none writes a byte at `CAP` or above. -/
theorem Effect.cfg_and_high_bytes {i : Instr} {s t : State} (h : Effect s i t) :
    t.cfg = s.cfg ∧ ∀ a, s.cfg.cap ≤ a → t.buf.read a = s.buf.read a := by
  have same {u : State} (hc : u.cfg = s.cfg) (hb : u.buf = s.buf) :
      u.cfg = s.cfg ∧ ∀ a, s.cfg.cap ≤ a → u.buf.read a = s.buf.read a := ⟨hc, fun a _ => by rw [hb]⟩
  have only {u : State} (hu : AssemblerOnly s u) :
      u.cfg = s.cfg ∧ ∀ a, s.cfg.cap ≤ a → u.buf.read a = s.buf.read a := by
    obtain ⟨m, _, _, _, _, rfl, -, hm⟩ := hu
    exact ⟨rfl, hm⟩
  cases h with
  | line | parseIgnored | errclr | rst | read | crc16 => exact same rfl rfl
  | endline c1 c2 c3 c4 t1 t2 =>
    obtain ⟨hc, hb, -⟩ := checkTrailer_frame s.frame c1 c2 c3 c4 s
    exact same hc hb
  | poll h =>
    obtain ⟨u, rest, hu, rfl, -⟩ := exec_poll_effect h
    exact (only hu :)
  | parse =>
    obtain ⟨hc, hb, -⟩ := checkOwnTrailer_frame (s.withRecord (parsedRecord s))
    exact same hc hb
  | abort => split <;> exact same rfl rfl
  | arm => exact only (.armed s)
  | receive h => exact only (receive_assemblerOnly h)

/-- Settles O12: everything an instruction can do keeps these bytes. -/
theorem nothingIsStoredAtOrAboveCapacity : Obligations.NothingIsStoredAtOrAboveCapacity :=
  fun _ _ _ h => (exec_effect h).cfg_and_high_bytes.2

/-- Settles O17: RD_CFG by its parameter, and everything an instruction can do keeps the configuration. -/
theorem configurationIsReadableAndConstant : Obligations.ConfigurationIsReadableAndConstant :=
  ⟨fun _ => ⟨rfl, rfl, rfl, rfl, rfl, rfl, rfl, rfl, rfl, rfl, rfl, rfl, rfl⟩,
    fun _ _ _ h => (exec_effect h).cfg_and_high_bytes.1⟩

/-- Settles O58: of the instructions at the host's port only PARSE and RST reach the record. -/
theorem onlyParseAndRstWriteTheRecord : Obligations.OnlyParseAndRstWriteTheRecord := by
  intro i s t h hhost hparse hrst
  have only {u : State} (hu : AssemblerOnly s u) : u.record = s.record := by
    obtain ⟨_, _, _, _, _, rfl, -⟩ := hu
    rfl
  cases exec_effect h with
  | line hi => rw [hhost] at hi; exact hi.elim nofun nofun
  | endline => cases hhost
  | poll h =>
    obtain ⟨u, rest, hu, rfl, -⟩ := exec_poll_effect h
    exact (only hu :)
  | parseIgnored | parse => exact absurd rfl hparse
  | rst => exact absurd rfl hrst
  | abort => split <;> rfl
  | errclr | read | crc16 => rfl
  | arm => exact only (.armed s)
  | receive h => exact only (receive_assemblerOnly h)

/-! ## Ready -/

theorem exec_poll_ready {s : State} (h : s.st = .ready) : exec .poll s = .next s := by
  rw [exec_poll, armed_of_ready h, pollLoop_ready _ h, State.withQ_self]

/-- Settles O60: in Ready nothing but PARSE and RST reaches the assembler, and these two leave the storage. -/
theorem readyBufferIsFrozen : Obligations.ReadyBufferIsFrozen := by
  intro i s t hst h
  have same {u : State} (hb : u.buf = s.buf) (hl : u.len = s.len) (hs : u.st = s.st) :
      (∀ a, u.buf.read a = s.buf.read a) ∧ (i ≠ .parse → i ≠ .rst → u.len = s.len ∧ u.st = .ready) :=
    ⟨fun a => by rw [hb], fun _ _ => ⟨hl, hs.trans hst⟩⟩
  cases exec_effect h with
  | line | errclr | read | crc16 => exact same rfl rfl rfl
  | endline c1 c2 c3 c4 t1 t2 =>
    obtain ⟨-, hb, hl, hs, -⟩ := checkTrailer_frame s.frame c1 c2 c3 c4 s
    exact same hb hl hs
  | poll h => rw [exec_poll_ready hst] at h; cases h; exact same rfl rfl rfl
  | parseIgnored hne => exact absurd hst hne
  | parse =>
    obtain ⟨-, hb, -⟩ := checkOwnTrailer_frame (s.withRecord (parsedRecord s))
    exact ⟨fun a => congrArg (Memory.read · a) hb, fun hne => absurd rfl hne⟩
  | abort => rw [if_neg (by simp [hst])]; exact same rfl rfl rfl
  | rst => exact ⟨fun _ => rfl, fun _ hne => absurd rfl hne⟩
  | arm => rw [armed_of_ready hst]; exact same rfl rfl rfl
  | receive h => rw [receive_ready _ hst] at h; cases h

/-! ## Error bits, `RTS` and `ST` -/

theorem rxInstr_overflow (b : Byte) {s : State} (hs : s.st = .assembling) (hl : s.cfg.cap ≤ s.len) :
    rxInstr b s = .rxOverflow b := by
  simp [rxInstr, hs, hl]

theorem rxInstr_append (b : Byte) {s : State} (hs : s.st = .assembling) (hl : s.len < s.cfg.cap) :
    rxInstr b s = .rxAppend b := by
  simp [rxInstr, hs, hl]

theorem rxInstr_start {s : State} (hs : s.st = .idle) : rxInstr startMarker s = .rxIdleStart := by
  simp [rxInstr, hs]

/-- Who writes the error bits, and what (10_state.md R25). -/
theorem Effect.err_cases {i : Instr} {s t : State} (h : Effect s i t) :
    t.err = s.err ∨ ((i = .rst ∨ i = .errclr) ∧ t.err = ⟨false, false, false⟩) ∨
      ((i = .poll ∨ ∃ b, i = .rxOverflow b) ∧ ∃ v, t.err = { s.err with ovf := v } ∧ (s.err.ovf = true → v = true)) ∨
      ((i = .parse ∨ ∃ c1 c2 c3 c4 t1 t2, i = .endline c1 c2 c3 c4 t1 t2) ∧
        ∃ v, t.err = { s.err with sig := v } ∧ (s.err.sig = true → v = true)) ∨
      (i = .abort ∧ s.st = .assembling ∧ t.err = { s.err with abt := true }) := by
  cases h with
  | line | parseIgnored | read | crc16 => exact .inl rfl
  | arm =>
    obtain h | ⟨-, -, h⟩ := armed_cases s <;> rw [h] <;> exact .inl rfl
  | errclr => exact .inr (.inl ⟨.inr rfl, rfl⟩)
  | rst => exact .inr (.inl ⟨.inl rfl, rfl⟩)
  | endline c1 c2 c3 c4 t1 t2 =>
    obtain ⟨r, c, sig, h, hsig⟩ := checkTrailer_effect s.frame c1 c2 c3 c4 s
    exact .inr (.inr (.inr (.inl ⟨.inr ⟨c1, c2, c3, c4, t1, t2, rfl⟩, sig, congrArg State.err h, hsig⟩)))
  | parse =>
    obtain ⟨r, c, sig, h, hsig⟩ : ∃ r c sig, checkOwnTrailer (s.withRecord (parsedRecord s)) =
      (((s.withRecord (parsedRecord s)).withCrcReg c).withErr { s.err with sig := sig }).withRecord r ∧
        (s.err.sig = true → sig = true) := checkTrailer_effect ..
    exact .inr (.inr (.inr (.inl ⟨.inl rfl, sig, congrArg (fun u => (clearFrame u).err) h, hsig⟩)))
  | poll h =>
    obtain ⟨u, rest, ⟨_, _, _, _, ovf, rfl, hovf, -⟩, rfl, -⟩ := exec_poll_effect h
    exact .inr (.inr (.inl ⟨.inl rfl, ovf, rfl, hovf⟩))
  | abort =>
    split
    case isTrue hs => exact .inr (.inr (.inr (.inr ⟨rfl, hs, rfl⟩)))
    case isFalse => exact .inl rfl
  | @receive b _ h =>
    obtain ⟨-, -, rfl⟩ | ⟨-, -, -, rfl⟩ | ⟨-, -, -, rfl⟩ | ⟨-, -, -, rfl⟩ | ⟨hs, hl, -, rfl⟩ | ⟨hs, hl, -, -, rfl⟩ :=
      receive_cases h
    · exact .inl rfl
    · exact .inl rfl
    · exact .inl rfl
    · rw [becomeReady_eq]; exact .inl rfl
    all_goals exact .inr (.inr (.inl ⟨.inr ⟨b, rxInstr_overflow b hs hl⟩, true, rfl, fun _ => rfl⟩))

/-- Who writes `RTS`, and what (10_state.md R27). -/
theorem Effect.rts_cases {i : Instr} {s t : State} (h : Effect s i t) :
    t.rts = s.rts ∨ (i = .arm ∨ i = .poll) ∨ (i = .rst ∨ ∃ b, i = .rxAppend b) ∧ t.rts = .hiZ := by
  cases h with
  | line | parseIgnored | errclr | read | crc16 => exact .inl rfl
  | arm => exact .inr (.inl (.inl rfl))
  | poll => exact .inr (.inl (.inr rfl))
  | rst => exact .inr (.inr ⟨.inl rfl, rfl⟩)
  | endline c1 c2 c3 c4 t1 t2 =>
    obtain ⟨-, -, -, -, h⟩ := checkTrailer_frame s.frame c1 c2 c3 c4 s
    exact .inl h
  | parse =>
    obtain ⟨-, -, -, -, h⟩ := checkOwnTrailer_frame (s.withRecord (parsedRecord s))
    exact .inl h
  | abort => split <;> exact .inl rfl
  | @receive b _ h =>
    obtain ⟨-, -, rfl⟩ | ⟨-, -, -, rfl⟩ | ⟨-, -, -, rfl⟩ | ⟨hs, hl, -, rfl⟩ | ⟨-, -, -, rfl⟩ | ⟨-, -, -, -, rfl⟩ :=
      receive_cases h
    case inr.inr.inr.inl =>
      rw [becomeReady_eq]
      by_cases hf : s.cfg.fcEn = true
      · exact .inr (.inr ⟨.inr ⟨b, rxInstr_append b hs hl⟩, if_pos hf⟩)
      · exact .inl (if_neg hf)
    all_goals exact .inl rfl

/-- Who writes `ST` (10_state.md R21). -/
theorem Effect.st_cases {i : Instr} {s t : State} (h : Effect s i t) :
    t.st = s.st ∨ i = .rst ∨ i = .poll ∨ i = .abort ∨ i = .parse ∨ i = .rxIdleStart ∨
      ∃ b, i = .rxAppend b ∨ i = .rxOverflow b := by
  cases h with
  | line | parseIgnored | errclr | read | crc16 => exact .inl rfl
  | arm =>
    obtain h | ⟨-, -, h⟩ := armed_cases s <;> rw [h] <;> exact .inl rfl
  | endline c1 c2 c3 c4 t1 t2 =>
    obtain ⟨-, -, -, h, -⟩ := checkTrailer_frame s.frame c1 c2 c3 c4 s
    exact .inl h
  | rst | poll | abort | parse => simp
  | @receive b _ h =>
    obtain ⟨-, -, rfl⟩ | ⟨hs, rfl, -⟩ | ⟨hs, hl, -⟩ | ⟨hs, hl, -⟩ | ⟨hs, hl, -⟩ | ⟨hs, hl, -⟩ := receive_cases h
    · exact .inl rfl
    · simp [rxInstr_start hs]
    · simp [rxInstr_append b hs hl]
    · simp [rxInstr_append b hs hl]
    · simp [rxInstr_overflow b hs hl]
    · simp [rxInstr_overflow b hs hl]

/-- Settles O59, from who writes each of the three registers. -/
theorem statusChangesOnlyByTheNamedOperations : Obligations.StatusChangesOnlyByTheNamedOperations := by
  intro i s t h
  have heffect := exec_effect h
  have hrts := heffect.rts_cases
  obtain herr | ⟨hi, herr⟩ | ⟨hi, v, herr, hv⟩ | ⟨hi, v, herr, hv⟩ | ⟨hi, hs, herr⟩ := heffect.err_cases
  all_goals
    rw [herr]
    refine ⟨?_, ?_, ?_, ?_, ?_, ?_, heffect.st_cases.resolve_left⟩
    all_goals grind

end Sys2Proof.Machine
end

section
/-! PROOFS. Soundness (10_state.md R52, R45 to R49): every part of a sound state is kept by what an instruction can do,
and so by every step. -/

namespace Sys2Proof.Machine

/-! ## The record -/

/-- A store by a line keeps the shape of the record: what the primitives yield fits its register. -/
theorem RecordWf.applyRow {c : Config} {r : Record} (h : RecordWf c r) (a : RowAction) (n : Nat) (g : List Byte) :
    RecordWf c (applyLine c (a.toInstr n g) r) := by
  cases hs : stores c (a.toInstr n g) with
  | none => rwa [applyLine_of_none r hs]
  | some w =>
    rw [applyLine_of_some r hs]
    cases a with
    | num d rule =>
      obtain ⟨v, -, rfl⟩ := Option.map_eq_some_iff.mp ((stores_toInstr c d rule g).symm.trans hs)
      exact h.setNum d v
    | ts =>
      obtain ⟨t, ht, rfl⟩ := Option.map_eq_some_iff.mp hs
      exact h.withTs (xTs_length ht)
    | equipId =>
      obtain ⟨t, ht, rfl⟩ := Option.map_eq_some_iff.mp hs
      exact h.withEquipId (xStr_length ht)
    | msg =>
      obtain ⟨t, ht, rfl⟩ := Option.map_eq_some_iff.mp hs
      exact h.withMsg (xStr_length ht)
    | pflog =>
      obtain ⟨es, hes, rfl⟩ := Option.map_eq_some_iff.mp hs
      obtain ⟨hlen, hstamp⟩ := xPflog_wf hes
      exact h.storeLog hlen hstamp
    | devTypeCode rule =>
      obtain ⟨k, -, hs⟩ := Option.bind_eq_some_iff.mp hs
      obtain ⟨v, -, rfl⟩ := Option.map_eq_some_iff.mp hs
      exact h.modifyDev k fun _ hd => hd
    | devEquipId =>
      obtain ⟨k, -, hs⟩ := Option.bind_eq_some_iff.mp hs
      obtain ⟨t, ht, rfl⟩ := Option.map_eq_some_iff.mp hs
      exact h.modifyDev k fun _ ⟨_, hts, hunit⟩ => ⟨xStr_length ht, hts, hunit⟩
    | devReading w f =>
      obtain ⟨k, -, hs⟩ := Option.bind_eq_some_iff.mp hs
      obtain ⟨⟨stamp, v, u⟩, hx, rfl⟩ := Option.map_eq_some_iff.mp hs
      obtain ⟨hstamp, hunit⟩ := xReading_wf hx
      exact h.modifyDev k fun _ ⟨hid, _, _⟩ => ⟨hid, hstamp, hunit⟩

theorem RecordWf.applyLine {c : Config} {r : Record} (h : RecordWf c r) {i : Instr}
    (hi : i.port = .line ∨ i.port = .line0) : RecordWf c (applyLine c i r) := by
  rcases hi with hi | hi
  · obtain ⟨a, n, g, rfl⟩ | ⟨line, rfl⟩ := line_eq_toInstr_or_unrecognised hi
    · exact h.applyRow a n g
    · exact h
  · obtain ⟨g, rfl⟩ := line0_eq_header hi
    exact h.withHdr (headerText_length ..)

theorem RecordWf.applyLines {c : Config} {is : List Instr} (his : ∀ i ∈ is, i.port = .line ∨ i.port = .line0)
    {r : Record} (h : RecordWf c r) : RecordWf c (applyLines c is r) := by
  induction is generalizing r with
  | nil => exact h
  | cons i is ih =>
    rw [applyLines_cons]
    exact ih (fun j hj => his j (List.mem_cons_of_mem i hj)) (h.applyLine (his i List.mem_cons_self))

theorem recordWf_initialRecord (s : State) : RecordWf s.cfg (initialRecord s) :=
  (recordWf_default s.cfg).withDevN (deviceCount_le ..)

theorem recordWf_parsedRecord (s : State) : RecordWf s.cfg (parsedRecord s) :=
  RecordWf.applyLines (fun _ => frameProgram_isLine) (recordWf_initialRecord s)

/-! ## Updates of a sound state -/

/-- Soundness does not depend on the environment, the error bits, `CRCREG` and the operation in flight. -/
theorem Sound.congr {s t : State} (h : Sound s) (hcfg : t.cfg = s.cfg) (hst : t.st = s.st) (hlen : t.len = s.len)
    (hbuf : t.buf = s.buf) (hrts : t.rts = s.rts) (hrec : t.record = s.record) : Sound t := by
  obtain ⟨hc, hm, ⟨h1, h2, h3, h4, h5, h6, h7⟩, hr⟩ := h
  rw [← hcfg, ← hst, ← hlen, ← hbuf, ← hrts, ← hrec] at *
  exact ⟨hc, hm, ⟨h1, h2, h3, h4, h5, h6, h7⟩, hr⟩

theorem Sound.withErr {s : State} (h : Sound s) (v : Err) : Sound (s.withErr v) := h.congr rfl rfl rfl rfl rfl rfl

theorem Sound.withCrcReg {s : State} (h : Sound s) (v : Word16) : Sound (s.withCrcReg v) :=
  h.congr rfl rfl rfl rfl rfl rfl

theorem Sound.withAct {s : State} (h : Sound s) (v : Activity) : Sound (s.withAct v) :=
  h.congr rfl rfl rfl rfl rfl rfl

theorem Sound.withQ {s : State} (h : Sound s) (v : List Byte) : Sound (s.withQ v) := h.congr rfl rfl rfl rfl rfl rfl

theorem Sound.withInbox {s : State} (h : Sound s) (v : List Input) : Sound (s.withInbox v) :=
  h.congr rfl rfl rfl rfl rfl rfl

theorem Sound.withOut {s : State} (h : Sound s) (v : ReadValue) : Sound (s.withOut v) :=
  h.congr rfl rfl rfl rfl rfl rfl

theorem Sound.withRecord {s : State} (h : Sound s) {r : Record} (hr : RecordWf s.cfg r) : Sound (s.withRecord r) :=
  ⟨h.cfg, h.memory, h.assembler.withRecord r, hr⟩

/-- A sound state whose frame is dropped. -/
theorem Sound.dropped {s : State} (h : Sound s) : Sound ((s.withLen 0).withSt .idle) where
  cfg := h.cfg
  memory := h.memory
  record := h.record
  assembler :=
    { bounded := Nat.zero_le _
      idle_iff := by simp
      starts := fun hne => absurd rfl hne
      unfinished := nofun
      complete := nofun
      no_pin := h.assembler.no_pin
      released := nofun }

/-- A sound state whose frame is dropped and whose flow control is released. -/
theorem Sound.reset {s : State} (h : Sound s) : Sound (((s.withSt .idle).withLen 0).withRts .hiZ) := by
  obtain ⟨h1, h2, h3, h4, h5, -, -⟩ := h.dropped.assembler
  exact ⟨h.cfg, h.memory, ⟨h1, h2, h3, h4, h5, fun _ => rfl, fun _ => rfl⟩, h.record⟩

/-- A sound state in which a frame has begun. -/
theorem Sound.started {s : State} (h : Sound s) : Sound ((stored 0 startMarker s).withSt .assembling) where
  cfg := h.cfg
  memory := Memory.wf_write 0 startMarker h.memory
  record := h.record
  assembler :=
    { bounded := h.cap_pos
      idle_iff := by simp [stored]
      starts := fun _ => Memory.read_write_zero _ (by decide)
      unfinished := fun _ k hk => by simp [stored] at hk
      complete := nofun
      no_pin := h.assembler.no_pin
      released := nofun }

section
variable {s : State} (h : Sound s) (hst : s.st = .assembling)
include h hst

theorem Sound.len_pos : 0 < s.len :=
  Nat.pos_of_ne_zero fun h0 => by simpa [hst] using h.assembler.idle_iff.mpr h0

/-- After an append index 0 still holds the start marker, since a frame in progress is not empty. -/
theorem Sound.read_zero_append (b : Byte) : (s.buf.write s.len b).read 0 = startMarker := by
  rw [Memory.read_write_of_ne _ _ (Nat.ne_of_lt (h.len_pos hst))]
  exact h.assembler.starts (by simp [hst])

/-- After an append no byte before the lookback position is an end marker. -/
theorem Sound.read_append_ne_endMarker (b : Byte) {k : Nat} (hk : k + 6 < s.len) :
    (s.buf.write s.len b).read k ≠ endMarker := by
  rw [Memory.read_write_of_ne _ _ (by omega)]
  exact h.assembler.unfinished hst k hk

/-- A byte appended without completing the frame. -/
theorem Sound.appended (b : Byte) (hl : s.len < s.cfg.cap) (hc : completes (stored s.len b s) = false) :
    Sound (stored s.len b s) where
  cfg := h.cfg
  memory := Memory.wf_write s.len b h.memory
  record := h.record
  assembler :=
    { bounded := hl
      idle_iff := by simp [stored, hst]
      starts := fun _ => h.read_zero_append hst b
      unfinished := fun _ k hk => by
        change k + 6 < s.len + 1 at hk
        obtain hk | hk := Nat.lt_or_eq_of_le (Nat.le_of_lt_succ hk)
        · exact h.read_append_ne_endMarker hst b hk
        · intro hread
          have hcomplete : completes (stored s.len b s) = true := completes_iff.mpr ⟨by
            change 7 ≤ s.len + 1
            omega, by
            change (s.buf.write s.len b).read (s.len + 1 - 7) = endMarker
            rwa [show s.len + 1 - 7 = k by omega]⟩
          simp [hc] at hcomplete
      complete := fun hr => by simp [stored, hst] at hr
      no_pin := h.assembler.no_pin
      released := fun hr => by simp [stored, hst] at hr }

/-- A byte appended that completes the frame: it is not the start marker that stands at the lookback position. -/
theorem Sound.completed (b : Byte) (hl : s.len < s.cfg.cap) (hc : completes (stored s.len b s) = true) :
    Sound (becomeReady (stored s.len b s)) := by
  obtain ⟨h7, hend⟩ := completes_iff.mp hc
  change 7 ≤ s.len + 1 at h7
  change (s.buf.write s.len b).read (s.len + 1 - 7) = endMarker at hend
  have h8 : 8 ≤ s.len + 1 := by
    by_contra hlt
    rw [show s.len + 1 - 7 = 0 by omega, h.read_zero_append hst b] at hend
    exact absurd hend (by decide)
  have hrts : (if s.cfg.fcEn = true then Rts.hiZ else s.rts) = .hiZ := by
    split
    case isTrue => rfl
    case isFalse hf => exact h.assembler.no_pin (by simpa using hf)
  rw [becomeReady_eq]
  exact
    { cfg := h.cfg
      memory := Memory.wf_write s.len b h.memory
      record := h.record
      assembler :=
        { bounded := hl
          idle_iff := by simp [stored]
          starts := fun _ => h.read_zero_append hst b
          unfinished := nofun
          complete := fun _ => ⟨h8, hend, fun k hk => h.read_append_ne_endMarker hst b (by
            change k < s.len + 1 - 7 at hk
            omega)⟩
          no_pin := fun _ => hrts
          released := fun _ => hrts } }

end

/-- Every received byte keeps soundness. -/
theorem Sound.receive {b : Byte} {s t : State} (hs : Sound s) (h : receive b s = .next t) : Sound t := by
  have hdropped : Sound (raise .framingOvf s) := (hs.withErr _).dropped
  obtain ⟨-, -, rfl⟩ | ⟨-, -, -, rfl⟩ | ⟨hst, hl, hc, rfl⟩ | ⟨hst, hl, hc, rfl⟩ | ⟨-, -, -, rfl⟩ | ⟨-, -, -, -, rfl⟩ :=
    receive_cases h
  · exact hs
  · exact hs.started
  · exact hs.appended hst b hl hc
  · exact hs.completed hst b hl hc
  · exact hdropped
  · exact hdropped.started

theorem Sound.armed {s : State} (h : Sound s) : Sound (armed s) := by
  obtain heq | ⟨hf, hr, heq⟩ := armed_cases s <;> rw [heq]
  · exact h
  · obtain ⟨h1, h2, h3, h4, h5, h6, h7⟩ := h.assembler
    exact ⟨h.cfg, h.memory, ⟨h1, h2, h3, h4, h5, fun hno => by simp [hf] at hno, fun hready => absurd hready hr⟩,
      h.record⟩

theorem Sound.poll {s t : State} (hs : Sound s) (h : exec .poll s = .next t) : Sound t := by
  obtain ⟨u, rest, hu, rfl, -⟩ := pollLoop_induction (fun _ _ _ h h' => Sound.receive h h') hs.armed h
  exact hu.withQ rest

theorem Sound.checkTrailer {s : State} (h : Sound s) (frame : List Byte) (c1 c2 c3 c4 : Byte) :
    Sound (checkTrailer frame c1 c2 c3 c4 s) := by
  have hr := ((h.record.withCrcCalc (crc16 (checkedRange frame))).withCrcTx)
  obtain ⟨tx, -, heq⟩ | ⟨-, heq⟩ := checkTrailer_cases frame c1 c2 c3 c4 s <;> rw [heq]
  · exact (h.withCrcReg _).withRecord ((hr tx).withCrcValid _)
  · exact ((h.withCrcReg _).withErr _).withRecord ((hr _).withCrcValid false)

/-! ## Instructions and steps -/

/-- Every instruction keeps soundness. -/
theorem Sound.exec {i : Instr} {s t : State} (hs : Sound s) (h : exec i s = .next t) : Sound t := by
  cases exec_effect h with
  | line hi => exact hs.withRecord (hs.record.applyLine hi)
  | endline => exact hs.checkTrailer ..
  | poll h => exact hs.poll h
  | parseIgnored => exact hs
  | parse => exact ((hs.withRecord (recordWf_parsedRecord s)).checkTrailer ..).dropped
  | abort =>
    split
    case isTrue => exact (hs.withErr _).dropped
    case isFalse => exact hs
  | errclr => exact hs.withErr _
  | read => exact hs.withOut _
  | crc16 => exact hs.withCrcReg _
  | rst => exact (hs.reset.withErr _).withRecord (recordWf_default s.cfg)
  | arm => exact hs.armed
  | receive h => exact hs.receive h

theorem execDecoded_eq_next {d : Except DecodeError Instr} {s t : State} {k : State → Result} :
    execDecoded d s k = .next t ↔ ∃ i u, d = .ok i ∧ Machine.exec i s = .next u ∧ k u = .next t := by
  cases d with
  | error e => simp [execDecoded]
  | ok i => simp [execDecoded, andThen_eq_next]

/-- Settles O55: each place of fetch runs one instruction, or takes an input. -/
theorem everyStepKeepsTheMachineSound : Obligations.EveryStepKeepsTheMachineSound := by
  intro s t hs h
  cases hact : s.act with
  | idle =>
    rw [step_idle hact, stepInput] at h
    split at h
    · cases h; exact hs
    · cases h; exact (hs.withInbox _).withQ _
    · obtain ⟨i, u, -, hu, h⟩ := execDecoded_eq_next.mp h
      cases h
      exact (hs.withInbox _).exec hu
  | arming =>
    rw [step_arming hact, exec_arm, andThen_next] at h
    cases h
    exact hs.armed.withAct _
  | receiving =>
    rw [step_receiving hact, stepReceive] at h
    split at h
    · cases h; exact hs.withAct _
    · split at h
      · cases h; exact hs.withAct _
      · exact (hs.withQ _).exec h
  | parsing lp j =>
    rw [step_parsing hact, stepParse, withFrame_eq_next] at h
    obtain ⟨-, h⟩ := h
    split at h
    · obtain ⟨i, u, -, hu, h⟩ := execDecoded_eq_next.mp h
      cases h
      exact (hs.exec hu).withAct _
    · obtain ⟨i, u, -, hu, h⟩ := execDecoded_eq_next.mp h
      cases h
      exact (hs.exec hu).dropped.withAct _

/-- Settles O56: an empty frame, an empty storage and the default record, and the default configuration is legal. -/
theorem resetIsSound : Obligations.ResetIsSound := by
  have hreset (c : Config) (hc : c.wf = true) : Sound (State.resetWith c) :=
    { cfg := hc
      memory := resetWith_memory_wf c
      record := recordWf_default c
      assembler :=
        { bounded := Nat.zero_le _
          idle_iff := by simp [State.resetWith]
          starts := fun hne => absurd rfl hne
          unfinished := nofun
          complete := nofun
          no_pin := fun _ => rfl
          released := fun _ => rfl } }
  exact ⟨hreset, hreset defaultConfig (by decide +kernel)⟩

/-! ## Faults -/

theorem andThen_ne_fault {r : Result} {k : State → Result} {f : Fault} (hr : r ≠ .fault f)
    (hk : ∀ t, r = .next t → k t ≠ .fault f) : andThen r k ≠ .fault f := by
  cases r with
  | next t => exact hk t rfl
  | fault => exact hr
  | refused => nofun

/-- RX completes or is refused where the buffer has a byte. -/
theorem receive_ne_fault (b : Byte) {s : State} (hc : 0 < s.cfg.cap) (f : Fault) : receive b s ≠ .fault f := by
  by_cases hr : s.st = .ready
  · rw [receive_ready b hr]; nofun
  · obtain ⟨t, ht⟩ := receive_next b hr hc
    rw [ht]; nofun

/-- No instruction faults in a sound state: the indices it uses exist. -/
theorem Sound.exec_ne_fault {s : State} (hs : Sound s) (i : Instr) (f : Fault) : Machine.exec i s ≠ .fault f := by
  have hrx (b : Byte) (h : i = rxInstr b s) : Machine.exec i s ≠ .fault f := by
    rw [h, ← receive_eq_exec]
    exact receive_ne_fault b hs.cap_pos f
  by_cases hi : i.port = .line ∨ i.port = .line0
  · rw [exec_line hi]; nofun
  cases i with
  | endline c1 c2 c3 c4 t1 t2 =>
    rw [exec_endline c1 c2 c3 c4 t1 t2 hs.assembler.bounded]; nofun
  | poll =>
    obtain ⟨t, ht⟩ := exec_poll_next hs.cap_pos
    rw [ht]; nofun
  | parse =>
    by_cases hst : s.st = .ready
    · rw [exec_parse_eq hst hs.assembler.bounded]; nofun
    · rw [exec_parse_of_ne hst]; nofun
  | rdBuf k =>
    change execRdBuf k s ≠ _
    unfold execRdBuf
    split_ifs <;> nofun
  | rdRec g =>
    change execRdRec g s ≠ _
    unfold execRdRec
    split <;> nofun
  | rxIdleOther b =>
    by_cases hc : s.st = .idle ∧ b ≠ startMarker
    · exact hrx b (by simp [rxInstr, hc.1, hc.2])
    · rw [exec_rxIdleOther_refused hc]; nofun
  | rxIdleStart =>
    by_cases hc : s.st = .idle
    · exact hrx startMarker (rxInstr_start hc).symm
    · rw [exec_rxIdleStart_refused hc]; nofun
  | rxAppend b =>
    by_cases hc : s.st = .assembling ∧ s.len < s.cfg.cap
    · exact hrx b (rxInstr_append b hc.1 hc.2).symm
    · rw [exec_rxAppend_refused hc]; nofun
  | rxOverflow b =>
    by_cases hc : s.st = .assembling ∧ s.cfg.cap ≤ s.len
    · exact hrx b (rxInstr_overflow b hc.1 hc.2).symm
    · rw [exec_rxOverflow_refused hc]; nofun
  | abort | errclr | rst | rdStatus | rdErr | rdLen | rdCfg | arm | crc16 => nofun
  | _ => exact absurd (by simp [Instr.port]) hi

theorem execDecoded_ne_fault {d : Except DecodeError Instr} {s : State} {k : State → Result} {f : Fault}
    (hs : Sound s) (hk : ∀ t, k t ≠ .fault f) : execDecoded d s k ≠ .fault f := by
  cases d with
  | error e => nofun
  | ok i => exact andThen_ne_fault (hs.exec_ne_fault i f) fun t _ => hk t

/-- Settles O57: no instruction faults, and a step runs an instruction or none. -/
theorem noFaultInASoundState : Obligations.NoFaultInASoundState := by
  intro s hs
  refine ⟨fun f => ?_, hs.exec_ne_fault⟩
  cases hact : s.act with
  | idle =>
    rw [step_idle hact, stepInput]
    split
    · nofun
    · nofun
    · exact execDecoded_ne_fault (hs.withInbox _) fun _ => nofun
  | arming => rw [step_arming hact, exec_arm]; nofun
  | receiving =>
    rw [step_receiving hact, stepReceive]
    split
    · nofun
    · split
      · nofun
      · exact (hs.withQ _).exec_ne_fault _ f
  | parsing lp j =>
    rw [step_parsing hact, stepParse, withFrame, if_pos hs.assembler.bounded]
    split
    · exact execDecoded_ne_fault hs fun _ => nofun
    · exact execDecoded_ne_fault hs fun _ => nofun

end Sys2Proof.Machine
end

section
/-! PROOFS. Steps (notes/assumptions/4.md): each place of fetch runs the decoded instruction, and a POLL taken byte by
byte and a PARSE taken line by line end where the atomic operations end. -/

namespace Sys2Proof.Machine

/-! ## One step at each place of fetch -/

theorem andThen_next_self (r : Result) : andThen r .next = r := by cases r <;> rfl

theorem execDecoded_ok (i : Instr) (s : State) (k : State → Result) :
    execDecoded (.ok i) s k = andThen (exec i s) k := rfl

theorem step_operation {s : State} {bytes : List Byte} {rest : List Input} (hact : s.act = .idle)
    (hinbox : s.inbox = .operation bytes :: rest) :
    step s = execDecoded (decode .host s.cfg.tagtab bytes) (s.withInbox rest) .next := by
  simp only [step_idle hact, stepInput, hinbox]

theorem step_line {s : State} {lp j : Nat} (hact : s.act = .parsing lp j) (hlen : s.len ≤ s.cfg.cap)
    (hlp : lp < s.len) :
    step s = execDecoded (fetchLine s.cfg.tagtab s.frame lp j) s fun t =>
      .next (t.withAct (.parsing (cursorAfter s.frame lp) (j + 1))) := by
  rw [step_parsing hact, stepParse, withFrame, if_pos hlen, if_pos hlp]

theorem step_trailer {s : State} {lp j : Nat} (hact : s.act = .parsing lp j) (hlen : s.len ≤ s.cfg.cap)
    (hlp : s.len ≤ lp) :
    step s = execDecoded (fetchTrailer s.cfg.tagtab s.frame) s fun t => .next ((clearFrame t).withAct .idle) := by
  rw [step_parsing hact, stepParse, withFrame, if_pos hlen, if_neg (Nat.not_lt.mpr hlp)]

theorem step_poll_end {s : State} (hact : s.act = .receiving) (h : s.q = [] ∨ s.st = .ready) :
    step s = .next (s.withAct .idle) := by
  rw [step_receiving hact, stepReceive]
  split
  case h_1 => rfl
  case h_2 b q hq => rw [if_pos (h.resolve_left (by simp [hq]))]

theorem step_byte {s : State} {b : Byte} {q : List Byte} (hact : s.act = .receiving) (hq : s.q = b :: q)
    (hst : s.st ≠ .ready) : step s = exec (rxInstr b s) (s.withQ q) := by
  simp only [step_receiving hact, stepReceive, hq, if_neg hst]

theorem rxInstr_other {b : Byte} {s : State} (hs : s.st = .idle) (hb : b ≠ startMarker) :
    rxInstr b s = .rxIdleOther b := by
  simp [rxInstr, hs, hb]

/-- Settles O52: the step at each place of fetch, on what the decoder answers there. -/
theorem stepRunsTheDecodedInstruction : Obligations.StepRunsTheDecodedInstruction := by
  intro s i
  refine ⟨fun hact hinbox => ?wait, fun bs rest hact hinbox => ?arrival, fun bytes rest hact hinbox => ⟨?request, ?bad⟩,
    fun lp j hact hlen => ⟨fun hlp hfetch => ?line, fun hlp hfetch => ?trailer⟩, step_arming, step_poll_end,
    fun b q hact hq => ⟨fun hs hb => ?other, fun hs hb => ?start, fun hs hl => ?append, fun hs hl => ?overflow⟩⟩
  case wait => simp only [step_idle hact, stepInput, hinbox]
  case arrival => simp only [step_idle hact, stepInput, hinbox]
  case request =>
    intro hdecode
    rw [step_operation hact hinbox, hdecode, execDecoded_ok, andThen_next_self]
  case bad =>
    intro e hdecode
    rw [step_operation hact hinbox, hdecode, execDecoded]
  case line => rw [step_line hact hlen hlp, hfetch, execDecoded_ok]
  case trailer =>
    rw [step_trailer hact hlen hlp, hfetch, execDecoded_ok]
    rfl
  case other => rw [step_byte hact hq (by simp [hs]), rxInstr_other hs hb]
  case start => rw [step_byte hact hq (by simp [hs]), hb, rxInstr_start hs]
  case append => rw [step_byte hact hq (by simp [hs]), rxInstr_append b hs hl]
  case overflow => rw [step_byte hact hq (by simp [hs]), rxInstr_overflow b hs hl]

/-! ## A POLL byte by byte -/

/-- From a point inside a POLL the bytes left are received one by one, to where the loop ends. -/
theorem run_receiving {q : List Byte} {s t : State} (h : pollLoop q s = .next t) :
    ∃ n, Host.Core.run core n (s.withEnv q .receiving) = .next (t.withAct .idle) := by
  induction q generalizing s with
  | nil =>
    cases h
    exact ⟨1, run_one (step_poll_end (s := s.withEnv [] .receiving) rfl (.inl rfl))⟩
  | cons b q ih =>
    by_cases hr : s.st = .ready
    · rw [pollLoop_ready _ hr] at h
      cases h
      exact ⟨1, run_one (step_poll_end (s := s.withEnv (b :: q) .receiving) rfl (.inr hr))⟩
    · rw [pollLoop_cons b q hr, andThen_eq_next] at h
      obtain ⟨u, hu, h⟩ := h
      obtain ⟨n, hn⟩ := ih h
      have hstep : step (s.withEnv (b :: q) .receiving) = .next (u.withEnv q .receiving) := by
        have hrx := receive_withEnv b q .receiving s
        rw [hu, andThen_next, receive_eq_exec] at hrx
        exact (step_byte (s := s.withEnv (b :: q) .receiving) rfl rfl hr).trans hrx
      exact ⟨1 + n, (run_add 1 n (run_one hstep)).trans hn⟩

theorem armed_withAct (s : State) (a : Activity) : armed (s.withAct a) = (armed s).withAct a :=
  (apply_ite (State.withAct · a) (s.cfg.fcEn = true ∧ s.st ≠ .ready) (s.withRts .high) s).symm

/-- Settles O54: one step for ARM, and then the loop byte by byte. -/
theorem byteByBytePollReachesTheAtomicResult : Obligations.ByteByBytePollReachesTheAtomicResult := by
  intro s hs hact
  obtain ⟨t, ht⟩ := exec_poll_next hs.cap_pos
  have harm : step (s.withAct .arming) = .next ((armed s).withEnv s.q .receiving) := by
    rw [step_arming rfl, exec_arm, andThen_next, armed_withAct, State.withAct_withAct, State.withEnv, ← armed_withQ,
      State.withQ_self]
  obtain ⟨n, hn⟩ := run_receiving (exec_poll s ▸ ht)
  have hidle : t.withAct .idle = t := by
    obtain ⟨u, rest, ⟨_, _, _, _, _, rfl, -⟩, rfl, -⟩ := exec_poll_effect ht
    rw [← hact]
    rfl
  exact ⟨1 + n, t, ht, hidle ▸ (run_add 1 n (run_one harm)).trans hn⟩

/-! ## A PARSE line by line -/

theorem splitLines_eq_nil {l : List Byte} (h : splitLines l = []) : l = [] := by
  by_contra hne
  rw [splitLines_eq_cons hne] at h
  cases h

/-- What follows the separator of the line at the cursor begins at the next cursor. -/
theorem drop_cursorAfter (frame : List Byte) (lp : Nat) :
    frame.drop (cursorAfter frame lp) = (upFrom lineFeed (frame.drop lp)).drop 1 := by
  have hsplit := before_append_upFrom lineFeed (frame.drop lp)
  calc frame.drop (cursorAfter frame lp)
    _ = ((frame.drop lp).drop (lineAt frame lp).length).drop 1 := by
      rw [List.drop_drop, List.drop_drop, cursorAfter, Nat.add_assoc]
    _ = ((before lineFeed (frame.drop lp) ++ upFrom lineFeed (frame.drop lp)).drop
          (before lineFeed (frame.drop lp)).length).drop 1 := by rw [hsplit, lineAt]
    _ = _ := by rw [List.drop_left]

/-- The point inside a PARSE at this cursor, with this record. -/
def State.atLine (s : State) (r : Record) (lp j : Nat) : State := (s.withRecord r).withAct (.parsing lp j)

/-- One line of a PARSE: its stores, and the cursor past its separator. -/
theorem step_atLine {s : State} {r : Record} {lp j : Nat} {i : Instr} (hlen : s.len ≤ s.cfg.cap) (hlp : lp < s.len)
    (hfetch : fetchLine s.cfg.tagtab s.frame lp j = .ok i) (hi : i.port = .line ∨ i.port = .line0) :
    step (s.atLine r lp j) = .next (s.atLine (applyLine s.cfg i r) (cursorAfter s.frame lp) (j + 1)) := by
  refine (step_line (s := s.atLine r lp j) rfl hlen hlp).trans ?_
  rw [show fetchLine (s.atLine r lp j).cfg.tagtab (s.atLine r lp j).frame lp j = .ok i from hfetch, execDecoded_ok,
    exec_line hi, andThen_next]
  rfl

/-- From a cursor behind the header the remaining lines run one by one, to the end of the frame. -/
theorem run_lines {s : State} (hlen : s.len ≤ s.cfg.cap) (ls : List (List Byte)) (r : Record) (lp j : Nat)
    (hls : splitLines (s.frame.drop lp) = ls) :
    ∃ n lp' j', s.len ≤ lp' ∧ Host.Core.run core n (s.atLine r lp (j + 1)) =
      .next (s.atLine (applyLines s.cfg (ls.map (decodeLine s.cfg.tagtab)) r) lp' j') := by
  induction ls generalizing r lp j with
  | nil =>
    have hend := List.drop_eq_nil_iff.mp (splitLines_eq_nil hls)
    rw [State.length_frame] at hend
    exact ⟨0, lp, j + 1, hend, rfl⟩
  | cons l ls ih =>
    have hne : s.frame.drop lp ≠ [] := fun h => by rw [h] at hls; cases hls
    have hlp : lp < s.len := by
      rw [← s.length_frame]
      exact Nat.lt_of_not_le fun h => hne (List.drop_eq_nil_iff.mpr h)
    rw [splitLines_eq_cons hne, ← drop_cursorAfter] at hls
    obtain ⟨hline, hrest⟩ := List.cons.inj hls
    have hfetch : fetchLine s.cfg.tagtab s.frame lp (j + 1) = .ok (decodeLine s.cfg.tagtab l) := by
      rw [← hline]
      rfl
    obtain ⟨n, lp', j', hend, hn⟩ := ih (applyLine s.cfg (decodeLine s.cfg.tagtab l) r) _ (j + 1) hrest
    refine ⟨1 + n, lp', j', hend, ?_⟩
    rw [run_add 1 n (run_one (step_atLine hlen hlp hfetch (.inl (decodeLine_isLine ..)))), hn, List.map_cons,
      applyLines_cons]

/-- Step 5 neither reads nor writes the operation in flight. -/
theorem checkTrailer_withAct (frame : List Byte) (c1 c2 c3 c4 : Byte) (s : State) (a : Activity) :
    checkTrailer frame c1 c2 c3 c4 (s.withAct a) = (checkTrailer frame c1 c2 c3 c4 s).withAct a := by
  obtain ⟨tx, hhex, h⟩ | ⟨hhex, h⟩ := checkTrailer_cases frame c1 c2 c3 c4 s
  all_goals
    obtain ⟨tx', hhex', h'⟩ | ⟨hhex', h'⟩ := checkTrailer_cases frame c1 c2 c3 c4 (s.withAct a)
    all_goals
      rw [hhex] at hhex'
      cases hhex'
    rw [h, h']
    rfl

section
variable {s : State} (ha : AssemblerWf s) (hst : s.st = .ready)
include ha hst

/-- The first line of a sound Ready state's frame begins with the start marker (10_state.md R52 I3). -/
theorem frame_head_of_ready : ∃ rest, s.frame = startMarker :: rest := by
  obtain ⟨h8, -, -⟩ := ha.complete hst
  obtain ⟨n, hn⟩ : ∃ n, s.len = n + 1 := ⟨s.len - 1, by omega⟩
  refine ⟨s.buf.range 1 n, ?_⟩
  rw [State.frame, hn, Memory.range, ha.starts (by simp [hst])]

/-- The trailer of a sound Ready state's frame decodes to ENDLINE with the frame's own characters. -/
theorem fetchTrailer_of_ready (table : List TagRow) :
    fetchTrailer table s.frame = .ok (.endline (trailerByte s.frame 1) (trailerByte s.frame 2) (trailerByte s.frame 3)
      (trailerByte s.frame 4) (trailerByte s.frame 5) (trailerByte s.frame 6)) := by
  obtain ⟨hframe, hbody⟩ := frame_of_ready ha hst
  have htrailer : trailerOf s.frame = endMarker :: s.buf.range (s.len - 6) 6 := by
    rw [hframe, trailerOf_append _ hbody]
  simp only [fetchTrailer, trailerByte, htrailer]
  rfl

end

theorem clearFrame_withAct (s : State) (a : Activity) : clearFrame (s.withAct a) = (clearFrame s).withAct a := rfl

/-- The last step of a PARSE: step 5 on the frame's own trailer, and the clear. -/
theorem step_atTrailer {s : State} (hs : Sound s) (hst : s.st = .ready) (hact : s.act = .idle) (r : Record)
    {lp : Nat} (j : Nat) (hlp : s.len ≤ lp) :
    step (s.atLine r lp j) = .next (clearFrame (checkOwnTrailer (s.withRecord r))) := by
  have hlen := hs.assembler.bounded
  refine (step_trailer (s := s.atLine r lp j) rfl hlen hlp).trans ?_
  rw [show fetchTrailer (s.atLine r lp j).cfg.tagtab (s.atLine r lp j).frame = _ from
      fetchTrailer_of_ready hs.assembler hst s.cfg.tagtab, execDecoded_ok]
  have hcheck : checkTrailer (s.atLine r lp j).frame (trailerByte s.frame 1) (trailerByte s.frame 2)
      (trailerByte s.frame 3) (trailerByte s.frame 4) (s.atLine r lp j) =
      (checkOwnTrailer (s.withRecord r)).withAct (.parsing lp j) := checkTrailer_withAct ..
  have hself : (s.withRecord r).withAct .idle = s.withRecord r := by
    rw [← hact]
    rfl
  have hidle : checkOwnTrailer ((s.withRecord r).withAct .idle) = (checkOwnTrailer (s.withRecord r)).withAct .idle :=
    checkTrailer_withAct ..
  rw [hself] at hidle
  rw [exec_endline _ _ _ _ _ _ (s := s.atLine r lp j) hlen, andThen_next, hcheck, clearFrame_withAct,
    State.withAct_withAct, ← clearFrame_withAct, ← hidle]

/-- Settles O53: the header, the other lines one by one, and the trailer. -/
theorem lineByLineParseReachesTheAtomicResult : Obligations.LineByLineParseReachesTheAtomicResult := by
  intro s hs hst hact
  have hlen := hs.assembler.bounded
  obtain ⟨rest, hframe⟩ := frame_head_of_ready hs.assembler hst
  have hheader : before lineFeed s.frame = startMarker :: before lineFeed rest := by rw [hframe]; rfl
  have hfetch : fetchLine s.cfg.tagtab s.frame 0 0 = .ok (.header (before lineFeed rest)) := by
    rw [fetchLine, lineAt, List.drop_zero, hheader]
    rfl
  have hprogram : frameProgram s.cfg.tagtab s.frame = .header (before lineFeed rest) ::
      (splitLines (s.frame.drop (cursorAfter s.frame 0))).map (decodeLine s.cfg.tagtab) := by
    rw [frameProgram, splitLines_eq_cons (by simp [hframe]), drop_cursorAfter, List.drop_zero, hheader]
    rfl
  have hfirst := step_atLine (r := initialRecord s) hlen
    (by rw [← s.length_frame, hframe]; exact Nat.succ_pos _) hfetch (.inr rfl)
  obtain ⟨n, lp, j, hlp, hlines⟩ := run_lines hlen _ (applyLine s.cfg (.header (before lineFeed rest)) (initialRecord s))
    (cursorAfter s.frame 0) 0 rfl
  rw [← applyLines_cons, ← hprogram] at hlines
  refine ⟨1 + (n + 1), _, exec_parse_eq hst hlen, ?_⟩
  calc Host.Core.run core (1 + (n + 1)) (s.atLine (initialRecord s) 0 0)
    _ = Host.Core.run core (n + 1) _ := run_add 1 (n + 1) (run_one hfirst)
    _ = Host.Core.run core 1 (s.atLine (parsedRecord s) lp j) := run_add n 1 hlines
    _ = _ := run_one (step_atTrailer hs hst hact _ j hlp)

end Sys2Proof.Machine
end

section
/-! PROOFS. The host operations that do not parse (45_host.md R260 to R271, 10_state.md R26, R49, R53): reset, the reads
of the status word, of the buffer and of the record, and the device type. -/

namespace Sys2Proof.Machine

/-! ## Reset -/

theorem bufByte_of_empty {s : State} (h : s.len = 0) (i : Nat) : s.bufByte i = 0x00#8 :=
  if_neg (by rw [h]; exact Nat.not_lt_zero i)

/-- Settles O1: the state after RST, field by field; of its record every field is the default. -/
theorem rstGivesTheResetTable : Obligations.RstGivesTheResetTable := fun s =>
  ⟨_, exec_rst s, rfl, rfl, bufByte_of_empty rfl, rfl, rfl, rfl, defaultRecord_getNum s.cfg, rfl, rfl, rfl, rfl, rfl,
    rfl, rfl, rfl, rfl, rfl, rfl, rfl, rfl⟩

/-- Settles O2: the power-on state and the state after RST have the same observable fields, both with an empty
buffer. -/
theorem powerOnStateIsWhatRstProduces : Obligations.PowerOnStateIsWhatRstProduces := by
  intro s t h
  rw [exec_rst] at h
  cases h
  exact ⟨⟨rfl, rfl, rfl, rfl, rfl, rfl, fun i => (bufByte_of_empty rfl i).trans (bufByte_of_empty rfl i).symm⟩,
    fun _ => rfl, rfl, rfl, rfl, rfl, rfl⟩

/-! ## The status word -/

theorem AsmState.toNat_code (v : AsmState) :
    v.code.toNat = match v with | .idle => 0 | .assembling => 1 | .ready => 2 := by cases v <;> rfl

/-- Settles O14: the weights of the packed bits. -/
theorem rdStatusPacksTheStatusWord : Obligations.RdStatusPacksTheStatusWord := by
  intro s
  refine ⟨s.statusWord, rfl, ?_⟩
  unfold State.statusWord State.ready
  cases s.st <;> cases s.rts <;> cases s.cfg.fcEn <;> rfl

/-! ## The buffer and the record -/

theorem exec_rdBuf_of_lt {s : State} {i : Nat} (h : i < s.cfg.cap) :
    exec (.rdBuf i) s = .next (s.withOut (.byte (s.bufByte i))) := if_pos h

theorem exec_rdBuf_of_le {s : State} {i : Nat} (h : s.cfg.cap ≤ i) :
    exec (.rdBuf i) s = if i < indexPortSize s.cfg.cap then .next (s.withOut (.byte 0x00#8))
      else .refused (.indexOutsidePort i) := if_neg (Nat.not_lt.mpr h)

/-- The index port carries the indices below the power of two that is at least `CAP` and less than twice it. -/
theorem indexPortSize_eq {cap k : Nat} (h1 : 2 ^ k < 2 * cap) (h2 : cap ≤ 2 ^ k) : indexPortSize cap = 2 ^ k := by
  unfold indexPortSize
  split
  case isTrue hc =>
    have hk : 2 ^ k < 2 ^ 1 := by omega
    rw [Nat.lt_one_iff.mp ((Nat.pow_lt_pow_iff_right (by omega)).mp hk), Nat.pow_zero]
  case isFalse hc =>
    cases k with
    | zero => omega
    | succ k =>
      rw [Nat.pow_succ] at h1 h2
      have hlog : Nat.log2 (cap - 1) = k :=
        (Nat.log2_eq_iff (by omega)).mpr ⟨by omega, by rw [Nat.pow_succ]; omega⟩
      rw [hlog]

/-- Settles O15: the three ranges of the index. -/
theorem rdBufReadsTheFrameAndZeroAboveIt : Obligations.RdBufReadsTheFrameAndZeroAboveIt := by
  intro s i
  refine ⟨exec_rdBuf_of_lt, fun k hi hk1 hk2 => ?_⟩
  rw [exec_rdBuf_of_le hi, indexPortSize_eq hk1 hk2]
  exact ⟨fun h => if_pos h, fun h => if_neg (Nat.not_lt.mpr h)⟩

theorem exec_rdRec_of_some {f : RecField} {s : State} {v : ReadValue} (h : s.record.field f = some v) :
    exec (.rdRec f) s = .next (s.withOut v) := by
  change execRdRec f s = _
  rw [execRdRec, h]

theorem exec_rdRec_of_none {f : RecField} {s : State} (h : s.record.field f = none) :
    exec (.rdRec f) s = .refused (.noSuchField f) := by
  change execRdRec f s = _
  rw [execRdRec, h]

theorem map_of_getElem? {α β : Type} {l : List α} {i : Nat} {a : α} (f : α → β) (h : l[i]? = some a) :
    l[i]?.map f = some (f a) := by rw [h, Option.map_some]

theorem map_of_length_le {α β : Type} {l : List α} {i : Nat} (f : α → β) (h : l.length ≤ i) : l[i]?.map f = none := by
  rw [List.getElem?_eq_none h, Option.map_none]

/-- Settles O16: the value of each field, where it exists. -/
theorem rdRecReturnsTheNamedField : Obligations.RdRecReturnsTheNamedField := by
  intro s hr
  refine ⟨fun d => rfl, rfl, rfl, rfl, rfl, rfl, rfl, rfl, rfl, rfl, fun i hi => ?log, fun k hk => ?dev, fun k => ?_⟩
  case log =>
    rw [← hr.pflog] at hi
    have h := List.getElem?_eq_getElem hi
    exact ⟨_, h, exec_rdRec_of_some (map_of_getElem? _ h), exec_rdRec_of_some (map_of_getElem? _ h),
      exec_rdRec_of_some (map_of_getElem? _ h)⟩
  case dev =>
    rw [← hr.dev] at hk
    have h := List.getElem?_eq_getElem hk
    exact ⟨_, h, exec_rdRec_of_some (map_of_getElem? _ h), exec_rdRec_of_some (map_of_getElem? _ h),
      exec_rdRec_of_some (map_of_getElem? _ h), exec_rdRec_of_some (map_of_getElem? _ h),
      exec_rdRec_of_some (map_of_getElem? _ h)⟩
  constructor
  · intro hk f hf
    rw [← hr.pflog] at hk
    obtain rfl | rfl | rfl := hf <;> exact exec_rdRec_of_none (map_of_length_le _ hk)
  · intro hk f hf
    rw [← hr.dev] at hk
    obtain rfl | rfl | rfl | rfl | rfl := hf <;> exact exec_rdRec_of_none (map_of_length_le _ hk)

/-! ## The device type -/

/-- Settles O39: in a legal configuration the three codes differ, so each test answers for its own code only. -/
theorem deviceTypeClassifiesTheCode : Obligations.DeviceTypeClassifiesTheCode := by
  intro c code hc
  simp only [Config.wf, Bool.and_eq_true, bne_iff_ne] at hc
  obtain ⟨⟨⟨-, ⟨hgt, hgw⟩, htw⟩, -⟩, -⟩ := hc
  unfold deviceType
  split_ifs with hg ht hw
  · subst hg; simp [hgt, hgw]
  · subst ht; simp [Ne.symm hgt, htw]
  · subst hw; simp [Ne.symm hgw, Ne.symm htw]
  · simp [hg, ht, hw]

end Sys2Proof.Machine
end

section
/-! PROOFS. The encodings (30_encoding.md, 45_host.md R259): the test of a tag pattern and its unambiguity, the lines of a frame,
and that the decoder gives back what the encoder wrote. -/

namespace Sys2Proof

open Machine

/-! ## The test of a tag pattern -/

theorem isDigit_iff (b : Byte) : isDigit b = true ↔ 0x30 ≤ b.toNat ∧ b.toNat ≤ 0x39 := by simp [isDigit]

theorem accepts_iff (p : PatByte) (b : Byte) :
    p.accepts b = true ↔ (∀ c, p = .lit c → b = c) ∧ (p = .digit → 0x30 ≤ b.toNat ∧ b.toNat ≤ 0x39) := by
  cases p with
  | lit c => simp [PatByte.accepts]
  | digit => simp [PatByte.accepts, isDigit_iff]

theorem matchPattern_cons (p : PatByte) (ps : List PatByte) (b : Byte) (bs g : List Byte) :
    matchPattern (p :: ps) (b :: bs) = some g ↔ p.accepts b = true ∧ matchPattern ps bs = some g := by
  rw [matchPattern]
  split <;> simp_all

/-- What a match is: the line begins with one accepted byte for each place of the pattern (R105). -/
theorem matchPattern_eq_some {ps : List PatByte} {bs g : List Byte} :
    matchPattern ps bs = some g ↔ ps.length ≤ bs.length ∧ g = bs.drop ps.length ∧
      ∀ k, k < ps.length → ∃ p b, ps[k]? = some p ∧ bs[k]? = some b ∧ p.accepts b = true := by
  induction ps generalizing bs with
  | nil =>
    rw [matchPattern, Option.some_inj]
    exact ⟨fun h => ⟨Nat.zero_le _, h.symm, nofun⟩, fun ⟨_, h, _⟩ => h.symm⟩
  | cons p ps ih =>
    cases bs with
    | nil => simp [matchPattern]
    | cons b bs =>
      rw [matchPattern_cons, ih]
      constructor
      · rintro ⟨hb, hlen, hg, hall⟩
        refine ⟨Nat.succ_le_succ hlen, hg, fun k hk => ?_⟩
        cases k with
        | zero => exact ⟨p, b, rfl, rfl, hb⟩
        | succ k => exact hall k (Nat.lt_of_succ_lt_succ hk)
      · rintro ⟨hlen, hg, hall⟩
        obtain ⟨p', b', hp, hb, hacc⟩ := hall 0 (Nat.succ_pos _)
        cases hp
        cases hb
        exact ⟨hacc, Nat.le_of_succ_le_succ hlen, hg, fun k hk => hall (k + 1) (Nat.succ_lt_succ hk)⟩

theorem compatible_of_accepts {p q : PatByte} {b : Byte} (hp : p.accepts b = true) (hq : q.accepts b = true) :
    p.compatible q = true := by
  cases p <;> cases q <;> simp_all [PatByte.accepts, PatByte.compatible, isDigit_iff]

/-- Two patterns that match one line overlap (R115). -/
theorem patternsOverlap_of_match {ps qs : List PatByte} {line g g' : List Byte} (hp : matchPattern ps line = some g)
    (hq : matchPattern qs line = some g') : patternsOverlap ps qs = true := by
  induction ps generalizing qs line with
  | nil => rw [patternsOverlap]; nofun
  | cons p ps ih =>
    cases qs with
    | nil => rw [patternsOverlap]; nofun
    | cons q qs =>
      cases line with
      | nil => cases hp
      | cons b line =>
        obtain ⟨hpb, hp⟩ := (matchPattern_cons ..).mp hp
        obtain ⟨hqb, hq⟩ := (matchPattern_cons ..).mp hq
        rw [patternsOverlap, compatible_of_accepts hpb hqb, ih hp hq, Bool.and_self]

/-- The rows of a disjoint table do not overlap pairwise. -/
theorem rowsDisjoint_iff {table : List TagRow} :
    rowsDisjoint table = true ↔ table.Pairwise fun r r' => patternsOverlap r.pattern r'.pattern = false := by
  induction table with
  | nil => simp [rowsDisjoint]
  | cons r rs ih => simp [rowsDisjoint, ih]

/-- In a disjoint table an earlier and a later row do not match one line. -/
theorem not_match_both {table : List TagRow} (h : rowsDisjoint table = true) {k l : Nat} {r r' : TagRow}
    {line : List Byte} (hk : table[k]? = some r) (hl : table[l]? = some r')
    (hr : matchPattern r.pattern line ≠ none) (hr' : matchPattern r'.pattern line ≠ none) : ¬ k < l := by
  intro hlt
  obtain ⟨hk', rfl⟩ := List.getElem?_eq_some_iff.mp hk
  obtain ⟨hl', rfl⟩ := List.getElem?_eq_some_iff.mp hl
  obtain ⟨g, hg⟩ := Option.ne_none_iff_exists'.mp hr
  obtain ⟨g', hg'⟩ := Option.ne_none_iff_exists'.mp hr'
  have hno := List.pairwise_iff_getElem.mp (rowsDisjoint_iff.mp h) k l hk' hl' hlt
  rw [patternsOverlap_of_match hg hg'] at hno
  cases hno

/-- Settles O49: the match spelled out, and no two rows of a disjoint table match one line. -/
theorem tagDispatchIsAnUnambiguousPrefixTest : Obligations.TagDispatchIsAnUnambiguousPrefixTest := by
  refine ⟨fun ps bs g => ?_, by decide +kernel, fun table line k l r r' h hk hl hr hr' => ?_⟩
  · simp only [matchPattern_eq_some, accepts_iff]
  · exact Nat.le_antisymm (Nat.le_of_not_lt (not_match_both h hl hk hr' hr))
      (Nat.le_of_not_lt (not_match_both h hk hl hr hr'))

/-! ## The lines of a frame -/

/-- The lines of a frame, each with its separator. -/
def separated (frame : List Byte) : List Byte := ((splitLines frame).map (· ++ [lineFeed])).flatten

theorem separated_singleton_lineFeed : separated [lineFeed] = [lineFeed] := rfl

theorem separated_singleton {b : Byte} (h : b ≠ lineFeed) : separated [b] = [b, lineFeed] := by
  simp [separated, splitLines, h]

theorem separated_cons (b : Byte) {bs : List Byte} (h : bs ≠ []) : separated (b :: bs) = b :: separated bs := by
  by_cases hb : b = lineFeed
  · simp [separated, splitLines, hb]
  · simp [separated, splitLines, hb, splitLines_eq_cons h]

/-- The separated lines are the frame, with a separator added where its last line lacks one. -/
theorem separated_eq {frame : List Byte} (h : frame ≠ []) :
    separated frame = if frame.getLast? = some lineFeed then frame else frame ++ [lineFeed] := by
  induction frame with
  | nil => exact absurd rfl h
  | cons b bs ih =>
    cases bs with
    | nil =>
      by_cases hb : b = lineFeed
      · rw [hb]; rfl
      · rw [separated_singleton hb, if_neg (by simpa using hb)]; rfl
    | cons c cs =>
      rw [separated_cons b (List.cons_ne_nil c cs), ih (List.cons_ne_nil c cs), List.getLast?_cons_cons]
      split <;> rfl

/-- Settles O50: no line holds a separator, and the separated lines make up the frame. -/
theorem linesAreCutAtEachSeparator : Obligations.LinesAreCutAtEachSeparator := by
  refine fun frame => ⟨fun l hl => not_mem_of_mem_splitLines hl, fun h => ?_, fun hne hlast => ?_⟩
  · by_cases hne : frame = []
    · rw [hne]; rfl
    · exact (separated_eq hne).trans (if_pos (h.resolve_left hne))
  · exact (separated_eq hne).trans (if_neg hlast)

/-! ## Rows -/

theorem toNat_digitByte {n : Nat} (hn : n ≤ 9) : (BitVec.ofNat 8 (0x30 + n)).toNat = 0x30 + n := by
  rw [BitVec.toNat_ofNat]
  omega

theorem accepts_byteFor (p : PatByte) {n : Nat} (hn : n ≤ 9) : p.accepts (p.byteFor n) = true := by
  cases p with
  | lit c => simp [PatByte.accepts, PatByte.byteFor]
  | digit =>
    rw [PatByte.accepts, PatByte.byteFor, isDigit_iff, toNat_digitByte hn]
    omega

/-- The tag written for an ordinal of one digit matches its pattern. -/
theorem matchPattern_byteFor (ps : List PatByte) {n : Nat} (hn : n ≤ 9) (g : List Byte) :
    matchPattern ps (ps.map (PatByte.byteFor n) ++ g) = some g := by
  induction ps with
  | nil => rfl
  | cons p ps ih => exact (matchPattern_cons ..).mpr ⟨accepts_byteFor p hn, ih⟩

/-- In a disjoint table the row found is the row that matches. -/
theorem findRow_of_match {table : List TagRow} (h : rowsDisjoint table = true) {r : TagRow} (hr : r ∈ table)
    {line g : List Byte} (hm : matchPattern r.pattern line = some g) : findRow table line = some (r.action, g) := by
  rw [rowsDisjoint_iff] at h
  induction table with
  | nil => cases hr
  | cons r0 rs ih =>
    obtain ⟨hr0, hrs⟩ := List.pairwise_cons.mp h
    rw [findRow]
    obtain rfl | hmem := List.mem_cons.mp hr
    · rw [hm]
    · cases hm0 : matchPattern r0.pattern line with
      | none => exact ih hrs hmem
      | some g0 =>
        have hno := hr0 r hmem
        rw [patternsOverlap_of_match hm0 hm] at hno
        cases hno

/-- The ordinal of a sub-device line is the digit at its wildcard (44_fields_log_subdev.md R241). -/
theorem ordinalOf_byteFor {ps : List PatByte} {n : Nat} (hn : n ≤ 9) (hps : ps[2]? = some .digit) (g : List Byte) :
    ordinalOf (ps.map (PatByte.byteFor n) ++ g) = n := by
  have hbyte : (ps.map (PatByte.byteFor n) ++ g)[2]? = some (BitVec.ofNat 8 (0x30 + n)) := by
    obtain ⟨hlt, -⟩ := List.getElem?_eq_some_iff.mp hps
    rw [List.getElem?_append_left (by rwa [List.length_map]), List.getElem?_map, hps]
    rfl
  rw [ordinalOf, List.getD_eq_getElem?_getD, hbyte, Option.getD_some, toNat_digitByte hn]
  omega

/-- The ordinal that stands in the line of a row: a main-meter row has none. -/
def RowAction.lineOrdinal (a : RowAction) (n : Nat) : Nat := if a.isSubDevice then n else 0

theorem encode_toInstr (table : List TagRow) (a : RowAction) (n : Nat) (g : List Byte) :
    encode table (a.toInstr n g) = encodeRow table a (a.lineOrdinal n) g := by
  cases a with
  | num d r => cases d <;> rfl
  | _ => rfl

theorem lineOrdinal_le_of_wellFormed {table : List TagRow} {a : RowAction} {n : Nat} {g : List Byte}
    (h : WellFormed table (a.toInstr n g) = true) : a.lineOrdinal n ≤ 9 := by
  cases a with
  | devTypeCode | devEquipId | devReading => exact of_decide_eq_true (Bool.and_eq_true_iff.mp h).2
  | _ => exact Nat.zero_le 9

/-- A main-meter row does not look at the ordinal. -/
theorem toInstr_lineOrdinal (a : RowAction) (n m : Nat) (g : List Byte) (h : a.isSubDevice = true → m = n) :
    a.toInstr m g = a.toInstr n g := by
  cases a with
  | devTypeCode | devEquipId | devReading => rw [h rfl]
  | _ => rfl

/-- The line written for a row decodes to the row. -/
theorem decodeLine_encodeRow {table : List TagRow} (hd : rowsDisjoint table = true)
    (hs : ∀ r ∈ table, r.shapely = true) {a : RowAction} {n : Nat} {g bytes : List Byte} (hn : a.lineOrdinal n ≤ 9)
    (h : encodeRow table a (a.lineOrdinal n) g = some bytes) : decodeLine table bytes = a.toInstr n g := by
  obtain ⟨r, hfind, rfl⟩ := Option.map_eq_some_iff.mp h
  have hmem := List.mem_of_find?_eq_some hfind
  have haction : r.action = a := by simpa using List.find?_some hfind
  rw [decodeLine, findRow_of_match hd hmem (matchPattern_byteFor r.pattern hn g), haction]
  refine toInstr_lineOrdinal a n _ g fun hsub => ?_
  have hshape := hs r hmem
  rw [TagRow.shapely, haction, hsub, Bool.and_eq_true] at hshape
  rw [ordinalOf_byteFor hn (by simpa using hshape.1), RowAction.lineOrdinal, if_pos hsub]

/-! ## Host requests -/

theorem length_bytesOfNat (k n : Nat) : (bytesOfNat k n).length = k := by
  induction k generalizing n with
  | zero => rfl
  | succ k ih => rw [bytesOfNat, List.length_cons, ih]

theorem natOfBytes_bytesOfNat {k n : Nat} (h : n < 256 ^ k) : natOfBytes (bytesOfNat k n) = n := by
  induction k generalizing n with
  | zero => rw [Nat.pow_zero, Nat.lt_one_iff] at h; rw [h]; rfl
  | succ k ih =>
    rw [Nat.pow_succ] at h
    rw [bytesOfNat, natOfBytes, ih (by omega), BitVec.toNat_ofNat]
    omega

theorem NumDest.code_lt (d : NumDest) : d.code < 28 := by cases d <;> decide

theorem RecField.code_lt (f : RecField) : f.code < 45 := by
  cases f with
  | num d => exact Nat.lt_trans d.code_lt (by decide)
  | _ => simp [RecField.code]

/-- The number and the index of a field name it. -/
theorem recFieldOf_code (f : RecField) : recFieldOf f.code f.index = some f := by
  cases f with
  | num d => cases d <;> rfl
  | _ => rfl

theorem decodeHost_rdBuf {k : Nat} (h : k < 2 ^ 32) : decodeHost (0x0B#8 :: bytesOfNat 4 k) = .ok (.rdBuf k) := by
  simp [decodeHost, length_bytesOfNat, natOfBytes_bytesOfNat (k := 4) h]

theorem decodeHost_rdRec {f : RecField} (h : f.index < 2 ^ 32) :
    decodeHost (0x0C#8 :: BitVec.ofNat 8 f.code :: bytesOfNat 4 f.index) = .ok (.rdRec f) := by
  have hcode : f.code % 256 = f.code := Nat.mod_eq_of_lt (Nat.lt_trans f.code_lt (by decide))
  simp [decodeHost, length_bytesOfNat, hcode, natOfBytes_bytesOfNat (k := 4) h, recFieldOf_code]

theorem decodeHost_rdCfg (p : CfgField) : decodeHost [0x0D#8, BitVec.ofNat 8 p.code] = .ok (.rdCfg p) := by
  cases p <;> rfl

/-- Settles O48: the rows through their pattern, the frame's other two ports and the host's port by their first byte. -/
theorem decodeGivesBackWhatWasEncoded : Obligations.DecodeGivesBackWhatWasEncoded := by
  intro table i bytes hd hs hw h
  by_cases hi : i.port = .line
  · rw [hi]
    obtain ⟨a, n, g, rfl⟩ | ⟨line, rfl⟩ := line_eq_toInstr_or_unrecognised hi
    · rw [encode_toInstr] at h
      exact congrArg Except.ok (decodeLine_encodeRow hd hs (lineOrdinal_le_of_wellFormed hw) h)
    · cases h
      have hnone : findRow table bytes = none := by simpa using (Bool.and_eq_true_iff.mp hw).2
      exact congrArg Except.ok (by rw [decodeLine, hnone])
  cases i with
  | rdBuf k => cases h; exact decodeHost_rdBuf (of_decide_eq_true hw)
  | rdRec f => cases h; exact decodeHost_rdRec (of_decide_eq_true hw)
  | rdCfg p => cases h; exact decodeHost_rdCfg p
  | header | endline | poll | parse | abort | errclr | rst | rdStatus | rdErr | rdLen => cases h; rfl
  | arm | rxIdleOther | rxIdleStart | rxAppend | rxOverflow | crc16 => cases h
  | _ => exact absurd rfl hi

/-- Settles O51: the words by evaluation, and the unused codes by the decoder's cases. -/
theorem writtenWordsDecode : Obligations.WrittenWordsDecode := by
  refine ⟨by decide +kernel, by decide +kernel, by decide +kernel, by decide +kernel, by decide +kernel,
    by decide +kernel, fun c ops hc => ?_⟩
  unfold decodeHost
  dsimp only
  split
  case h_12 => rfl
  all_goals omega

end Sys2Proof
end

section
/-! PROOFS. Numerals and the checksum (20_memory.md R76, 30_encoding.md R113, 40_crc.md R140 to R145): the value of a
digit string, the four checksum characters, and the algebra of one checksum step, which is linear and injective. -/

namespace Sys2Proof.Machine

/-! ## Decimal numerals -/

/-- The fold of `dec`, begun with a value: that value stands before all the digits. -/
theorem foldl_dec (ds : List Byte) (a : Nat) :
    ds.foldl (fun a d => 10 * a + (d.toNat - 0x30)) a = a * 10 ^ ds.length + dec ds := by
  induction ds generalizing a with
  | nil => simp [dec]
  | cons d ds ih =>
    have hd : dec (d :: ds) = (10 * 0 + (d.toNat - 0x30)) * 10 ^ ds.length + dec ds := ih _
    rw [List.foldl_cons, ih, hd, List.length_cons]
    ring

theorem dec_cons (d : Byte) (ds : List Byte) : dec (d :: ds) = (d.toNat - 0x30) * 10 ^ ds.length + dec ds := by
  rw [dec, List.foldl_cons, foldl_dec, Nat.mul_zero, Nat.zero_add]

/-- Settles O30: the first digit stands before all the others. -/
theorem decimalNumeralIsMostSignificantFirst : Obligations.DecimalNumeralIsMostSignificantFirst := by
  intro ds
  induction ds with
  | nil => rfl
  | cons d ds ih =>
    rw [dec_cons, ih, List.length_cons, Finset.sum_range_succ', Nat.add_comm]
    congr 1
    refine Finset.sum_congr rfl fun i hi => ?_
    have hlt := Finset.mem_range.mp hi
    rw [List.getD_cons_succ, show ds.length + 1 - 1 - (i + 1) = ds.length - 1 - i by omega]

/-! ## Hexadecimal characters -/

theorem hexDigit_hexChar : ∀ v, v < 16 → hexDigit (hexChar v) = some v := by decide

/-- A digit value is read from its character only. -/
theorem hexDigit_eq_some {b : Byte} {v : Nat} (h : hexDigit b = some v) : v < 16 ∧ hexChar v = b := by
  have hb := b.isLt
  unfold hexDigit at h
  split at h
  case isTrue hd =>
    rw [isDigit_iff] at hd
    cases h
    refine ⟨by omega, BitVec.eq_of_toNat_eq ?_⟩
    rw [hexChar, if_pos (by omega), BitVec.toNat_ofNat]
    omega
  case isFalse =>
    split at h
    case isTrue hd =>
      cases h
      refine ⟨by omega, BitVec.eq_of_toNat_eq ?_⟩
      rw [hexChar, if_neg (by omega), BitVec.toNat_ofNat]
      omega
    case isFalse => cases h

theorem hex4_eq_some {c1 c2 c3 c4 : Byte} {v : Word16} :
    hex4 c1 c2 c3 c4 = some v ↔ ∃ h1 h2 h3 h4, hexDigit c1 = some h1 ∧ hexDigit c2 = some h2 ∧
      hexDigit c3 = some h3 ∧ hexDigit c4 = some h4 ∧ BitVec.ofNat 16 (h1 * 4096 + h2 * 256 + h3 * 16 + h4) = v := by
  unfold hex4
  cases hexDigit c1 <;> cases hexDigit c2 <;> cases hexDigit c3 <;> cases hexDigit c4 <;> simp

/-- The four characters of a value read as it. -/
theorem hex4_hexText (c : Word16) : hex4 (hexChar (c.toNat / 4096)) (hexChar (c.toNat / 256 % 16))
    (hexChar (c.toNat / 16 % 16)) (hexChar (c.toNat % 16)) = some c := by
  have hc := c.isLt
  refine hex4_eq_some.mpr ⟨_, _, _, _, hexDigit_hexChar _ (by omega), hexDigit_hexChar _ (by omega),
    hexDigit_hexChar _ (by omega), hexDigit_hexChar _ (by omega), BitVec.eq_of_toNat_eq ?_⟩
  rw [BitVec.toNat_ofNat]
  omega

/-- Settles O46: each digit is read from its own character, and the four digits make up the value. -/
theorem hexTextReadsBack : Obligations.HexTextReadsBack := by
  refine ⟨fun c => ⟨_, _, _, _, rfl, hex4_hexText c⟩, fun c1 c2 c3 c4 v h => ?_⟩
  obtain ⟨h1, h2, h3, h4, hc1, hc2, hc3, hc4, rfl⟩ := hex4_eq_some.mp h
  obtain ⟨hlt1, rfl⟩ := hexDigit_eq_some hc1
  obtain ⟨hlt2, rfl⟩ := hexDigit_eq_some hc2
  obtain ⟨hlt3, rfl⟩ := hexDigit_eq_some hc3
  obtain ⟨hlt4, rfl⟩ := hexDigit_eq_some hc4
  rw [hexText, BitVec.toNat_ofNat, Nat.mod_eq_of_lt (by omega),
    show (h1 * 4096 + h2 * 256 + h3 * 16 + h4) / 4096 = h1 by omega,
    show (h1 * 4096 + h2 * 256 + h3 * 16 + h4) / 256 % 16 = h2 by omega,
    show (h1 * 4096 + h2 * 256 + h3 * 16 + h4) / 16 % 16 = h3 by omega,
    show (h1 * 4096 + h2 * 256 + h3 * 16 + h4) % 16 = h4 by omega]

/-! ## One shift of the checksum -/

theorem crcShift_zero : crcShift 0#16 = 0#16 := rfl

theorem xor_xor_cancel (x y p : Word16) : (x ^^^ p) ^^^ (y ^^^ p) = x ^^^ y := by
  rw [show (x ^^^ p) ^^^ (y ^^^ p) = (x ^^^ y) ^^^ (p ^^^ p) by ac_rfl, BitVec.xor_self, BitVec.xor_zero]

/-- A shift is linear over exclusive-or. -/
theorem crcShift_xor (a b : Word16) : crcShift (a ^^^ b) = crcShift a ^^^ crcShift b := by
  unfold crcShift
  rw [BitVec.getLsbD_xor, BitVec.ushiftRight_xor_distrib]
  cases a.getLsbD 0 <;> cases b.getLsbD 0
  · rfl
  · exact BitVec.xor_assoc ..
  · change a >>> 1 ^^^ b >>> 1 ^^^ crcPolynomial = a >>> 1 ^^^ crcPolynomial ^^^ b >>> 1
    ac_rfl
  · exact (xor_xor_cancel ..).symm

/-- A shift loses nothing: the polynomial's top bit tells whether the bit shifted out was 1. -/
theorem crcShift_eq_zero {a : Word16} (h : crcShift a = 0#16) : a = 0#16 := by
  unfold crcShift at h
  split at h
  case isTrue =>
    have htop := congrArg (BitVec.getLsbD · 15) h
    exact absurd (by simpa using htop) (by decide : crcPolynomial[15] ≠ false)
  case isFalse hlow =>
    refine BitVec.eq_of_getLsbD_eq fun i hi => ?_
    cases i with
    | zero => simpa using hlow
    | succ i =>
      have hbit := congrArg (BitVec.getLsbD · i) h
      simpa [Nat.add_comm] using hbit

theorem crcShift_injective {a b : Word16} (h : crcShift a = crcShift b) : a = b := by
  rw [← BitVec.xor_eq_zero_iff] at h ⊢
  rw [← crcShift_xor] at h
  exact crcShift_eq_zero h

/-! ## One byte of the checksum -/

/-- The eight shifts of one byte. -/
def crcShift8 (c : Word16) : Word16 := crcShift^[8] c

theorem crcUpd_eq (c : Word16) (b : Byte) : crcUpd c b = crcShift8 (c ^^^ b.setWidth 16) := rfl

theorem crcShift8_xor (a b : Word16) : crcShift8 (a ^^^ b) = crcShift8 a ^^^ crcShift8 b := by
  simp only [crcShift8, Function.iterate_succ_apply, Function.iterate_zero_apply, crcShift_xor]

theorem crcShift8_injective {a b : Word16} (h : crcShift8 a = crcShift8 b) : a = b :=
  Function.Injective.iterate (fun _ _ => crcShift_injective) 8 h

/-- An even value is only shifted. -/
theorem crcShift_double {x : Word16} (h : 2 * x.toNat < 2 ^ 16) : crcShift (x <<< 1) = x := by
  have hlow : (x <<< 1).getLsbD 0 = false := by simp
  rw [crcShift, hlow, if_neg (by simp)]
  refine BitVec.eq_of_toNat_eq ?_
  rw [BitVec.toNat_ushiftRight, BitVec.toNat_shiftLeft, Nat.shiftLeft_eq, Nat.shiftRight_eq_div_pow]
  omega

/-- A value over empty low bits is only shifted down. -/
theorem crcShift_iterate_shiftLeft {x : Word16} (k : Nat) (h : x.toNat * 2 ^ k < 2 ^ 16) :
    crcShift^[k] (x <<< k) = x := by
  induction k with
  | zero => simp
  | succ k ih =>
    rw [Nat.pow_succ, ← Nat.mul_assoc] at h
    have hx : (x <<< k).toNat = x.toNat * 2 ^ k := by
      rw [BitVec.toNat_shiftLeft, Nat.shiftLeft_eq, Nat.mod_eq_of_lt (by omega)]
    rw [BitVec.shiftLeft_add, Function.iterate_succ_apply, crcShift_double (by rw [hx]; omega), ih (by omega)]

/-- The high byte, and the low byte with the byte that enters. -/
theorem crcUpd_input (c : Word16) (b : Byte) :
    c ^^^ b.setWidth 16 = (c >>> 8) <<< 8 ^^^ (c.setWidth 8 ^^^ b).setWidth 16 := by
  refine BitVec.eq_of_getLsbD_eq fun i hi => ?_
  by_cases h : i < 8
  · simp [h, hi]
  · simp [h, hi, show 8 + (i - 8) = i by omega]

/-- A step is the high byte shifted down and the step of the low byte (40_crc.md R143 (d)). -/
theorem crcUpd_split (c : Word16) (b : Byte) : crcUpd c b = (c >>> 8) ^^^ crcUpd 0x0000#16 (c.setWidth 8 ^^^ b) := by
  have hhigh : (c >>> 8).toNat * 2 ^ 8 < 2 ^ 16 := by
    have hc := c.isLt
    rw [BitVec.toNat_ushiftRight, Nat.shiftRight_eq_div_pow]
    omega
  rw [crcUpd_eq, crcUpd_input, crcShift8_xor, crcUpd_eq, BitVec.zero_xor]
  exact congrArg (· ^^^ _) (crcShift_iterate_shiftLeft 8 hhigh)

theorem crcUpd_xor (c c' : Word16) (b b' : Byte) : crcUpd (c ^^^ c') (b ^^^ b') = crcUpd c b ^^^ crcUpd c' b' := by
  rw [crcUpd_eq, crcUpd_eq, crcUpd_eq, ← crcShift8_xor, BitVec.setWidth_xor]
  congr 1
  ac_rfl

theorem crcUpd_injective_left {c c' : Word16} {b : Byte} (h : crcUpd c b = crcUpd c' b) : c = c' :=
  (BitVec.xor_left_inj _).mp (crcShift8_injective h)

theorem crcUpd_injective_right {c : Word16} {b b' : Byte} (h : crcUpd c b = crcUpd c b') : b = b' := by
  have hwide := congrArg (BitVec.setWidth 8) ((BitVec.xor_right_inj _).mp (crcShift8_injective h))
  simpa using hwide

/-! ## The checksum of a string -/

theorem crc16_append (x y : List Byte) : crc16 (x ++ y) = crcFrom (crc16 x) y := List.foldl_append

theorem crcFrom_cons (c : Word16) (b : Byte) (bs : List Byte) : crcFrom c (b :: bs) = crcFrom (crcUpd c b) bs := rfl

theorem crcFrom_xor {x y : List Byte} (h : x.length = y.length) (c c' : Word16) :
    crcFrom (c ^^^ c') (List.zipWith (· ^^^ ·) x y) = crcFrom c x ^^^ crcFrom c' y := by
  induction x generalizing y c c' with
  | nil =>
    obtain rfl := List.length_eq_zero_iff.mp h.symm
    rfl
  | cons a x ih =>
    cases y with
    | nil => cases h
    | cons b y => rw [List.zipWith_cons_cons, crcFrom_cons, crcUpd_xor, ih (Nat.succ.inj h), crcFrom_cons, crcFrom_cons]

theorem crcFrom_injective {bs : List Byte} {c c' : Word16} (h : crcFrom c bs = crcFrom c' bs) : c = c' := by
  induction bs generalizing c c' with
  | nil => exact h
  | cons b bs ih => exact crcUpd_injective_left (ih h)

/-- A step with the value's own low byte shifts the high byte down. -/
theorem crcUpd_own_low (c : Word16) : crcUpd c (c.setWidth 8) = c >>> 8 := by
  rw [crcUpd_split, BitVec.xor_self]
  exact BitVec.xor_zero

/-- The checksum appended low byte first cancels itself (40_crc.md R143 (c)). -/
theorem crcFrom_own (c : Word16) : crcFrom c [c.setWidth 8, (c >>> 8).setWidth 8] = 0x0000#16 := by
  have hhigh : c >>> 8 >>> 8 = 0x0000#16 := by
    rw [← BitVec.shiftRight_add]
    exact BitVec.ushiftRight_eq_zero (Nat.le_refl 16)
  rw [crcFrom_cons, crcUpd_own_low, crcFrom_cons, crcUpd_own_low, hhigh]
  rfl

/-- Settles O43: the step is its eight shifts, and the two worked values. -/
theorem checksumEngineFoldsItsBytes : Obligations.ChecksumEngineFoldsItsBytes :=
  ⟨fun _ _ => rfl, rfl, fun x b => crc16_append x [b], fun _ _ => rfl, by decide +kernel, by decide +kernel⟩

/-- Settles O44, by the linearity, the streaming and the split of a step. -/
theorem checksumLaws : Obligations.ChecksumLaws :=
  ⟨fun _ _ h => crcFrom_xor h 0#16 0#16, crc16_append, fun x => (crc16_append x _).trans (crcFrom_own (crc16 x)),
    crcUpd_split⟩

/-- Settles O45: a step is injective in its byte, and the steps behind it in their start. -/
theorem checksumDetectsOneAlteredByte : Obligations.ChecksumDetectsOneAlteredByte := by
  intro x y b b' hne h
  rw [crc16_append, crc16_append, crcFrom_cons, crcFrom_cons] at h
  exact hne (crcUpd_injective_right (crcFrom_injective h))

/-! ## A received telegram -/

theorem trailerByte_telegram {body : List Byte} (tr : List Byte) (hb : endMarker ∉ body) (k : Nat) :
    trailerByte (body ++ endMarker :: tr) (k + 1) = tr.getD k 0x00#8 := by
  rw [trailerByte, trailerOf_append tr hb, List.getD_cons_succ]

/-- Step 5 on a frame whose characters are those of a value: valid exactly if the checksum is that value. -/
theorem checkOwnTrailer_telegram {s : State} {body : List Byte} {tx : Word16} {t1 t2 : Byte} (hb : endMarker ∉ body)
    (hframe : s.frame = body ++ endMarker :: (hexText tx ++ [t1, t2])) :
    (checkOwnTrailer s).record.crcValid = decide (crc16 (body ++ [endMarker]) = tx) ∧
      (checkOwnTrailer s).err = s.err := by
  rw [checkOwnTrailer, hframe, trailerByte_telegram _ hb, trailerByte_telegram _ hb, trailerByte_telegram _ hb,
    trailerByte_telegram _ hb]
  have hhex : hex4 ((hexText tx ++ [t1, t2]).getD 0 0x00#8) ((hexText tx ++ [t1, t2]).getD 1 0x00#8)
      ((hexText tx ++ [t1, t2]).getD 2 0x00#8) ((hexText tx ++ [t1, t2]).getD 3 0x00#8) = some tx := hex4_hexText tx
  obtain ⟨tx', htx, h⟩ | ⟨hnone, -⟩ := checkTrailer_cases (body ++ endMarker :: (hexText tx ++ [t1, t2]))
    ((hexText tx ++ [t1, t2]).getD 0 0x00#8) ((hexText tx ++ [t1, t2]).getD 1 0x00#8)
    ((hexText tx ++ [t1, t2]).getD 2 0x00#8) ((hexText tx ++ [t1, t2]).getD 3 0x00#8) s
  · obtain rfl := Option.some.inj (hhex.symm.trans htx)
    rw [h, checkedRange_append _ hb]
    exact ⟨rfl, rfl⟩
  · rw [hhex] at hnone
    cases hnone

/-- A telegram received in Idle and parsed is valid exactly if its characters are those of its checksum. -/
theorem poll_parse_telegram {s : State} (hs : Sound s) (hst : s.st = .idle) {body : List Byte} (hb : endMarker ∉ body)
    (hcap : body.length + 8 ≤ s.cfg.cap) (tx : Word16) (t1 t2 : Byte) :
    ∃ t u, exec .poll (s.withQ (startMarker :: body ++ endMarker :: hexText tx ++ [t1, t2])) = .next t ∧
      exec .parse t = .next u ∧
      u.record.crcValid = decide (crc16 (startMarker :: body ++ [endMarker]) = tx) ∧ u.err = s.err := by
  obtain ⟨m, hpoll, hrange, -⟩ := pollAssemblesAWholeTelegram
    (s.withQ (startMarker :: body ++ endMarker :: hexText tx ++ [t1, t2])) [] body (hexText tx ++ [t1, t2]) []
    hs.memory hst (by simp) hb rfl hcap (by simp)
  refine ⟨_, _, hpoll, exec_parse_eq rfl hcap, ?_⟩
  exact checkOwnTrailer_telegram (body := startMarker :: body)
    (List.not_mem_cons_of_ne_of_not_mem (by decide) hb) hrange

/-- Settles O47: with the characters of its own checksum a telegram is valid, and one altered byte has another
checksum. -/
theorem ownChecksumIsValidAndOneAlteredByteIsNot : Obligations.OwnChecksumIsValidAndOneAlteredByteIsNot := by
  intro s body t1 t2 hs hst hb hcap
  constructor
  · obtain ⟨t, u, hpoll, hparse, hvalid, herr⟩ := poll_parse_telegram hs hst hb hcap
      (crc16 (startMarker :: body ++ [endMarker])) t1 t2
    exact ⟨t, u, hpoll, hparse, by rw [hvalid, decide_eq_true rfl], herr⟩
  · rintro pre post b b' rfl hne hend
    have haltered : endMarker ∉ pre ++ b' :: post := by
      simp only [List.mem_append, List.mem_cons, not_or] at hb ⊢
      exact ⟨hb.1, Ne.symm hend, hb.2.2⟩
    obtain ⟨t, u, hpoll, hparse, hvalid, herr⟩ := poll_parse_telegram hs hst haltered (by simpa using hcap)
      (crc16 (startMarker :: (pre ++ b :: post) ++ [endMarker])) t1 t2
    refine ⟨t, u, hpoll, hparse, ?_, herr⟩
    rw [hvalid, decide_eq_false_iff_not]
    intro heq
    exact checksumDetectsOneAlteredByte (startMarker :: pre) (post ++ [endMarker]) b b' hne (by simpa using heq.symm)

end Sys2Proof.Machine
end
